-- ==== Sys2Proof/Word.lean ====
section
/-! DEFINITION. The byte and word types, and the part's time unit. -/

namespace Sys2Proof

/-- One byte of a link or of a setting's value. -/
abbrev Byte := BitVec 8

/-- A two-byte field of a frame, sent high byte first (11 section 11.8). -/
abbrev Word := BitVec 16

/-- Times are in microseconds: the shortest drive period is 50 µs (03 R37). -/
def ms (n : Nat) : Nat := n * 1000

def seconds (n : Nat) : Nat := ms (n * 1000)

def minutes (n : Nat) : Nat := seconds (n * 60)

end Sys2Proof
end

