-- ==== Sys2Proof/Syntax.lean ====
section
/-! DEFINITION. The commands of the part: one constructor per row of spec/opcode_table.json, and the names their
operands use. -/

namespace Sys2Proof

/-! ### Names of the part's units (numbered from 0: J1 is jack 0, O1 is output 0, Link 1 is link 0) -/

/-- Link 1 to Link 4. -/
abbrev Link := Fin 4
/-- J1 to J6. -/
abbrev Jack := Fin 6
/-- S1 to S4. -/
abbrev Slide := Fin 4
/-- A1 and A2. -/
abbrev Awning := Fin 2
/-- Sampler slots 0 to 15 (02 R20). -/
abbrev Slot := Fin 16
/-- Drive outputs O1 to O23 (03 R37). -/
abbrev Output := Fin 23
/-- Hall inputs P1 to P10 (03 R46). -/
abbrev Hall := Fin 10
/-- Step records 0 to 31 of the step pool (10 R162). -/
abbrev StepIndex := Fin 32

/-- A motion channel (01 R2). -/
inductive Channel where
  | jack (j : Jack)
  | slide (i : Slide)
  | awning (a : Awning)
deriving DecidableEq, Repr

/-- A holder of a fault record: a motion channel or the pump P (01 R2, R14). -/
inductive FaultHolder where
  | channel (c : Channel)
  | pump
deriving DecidableEq, Repr

/-- OUT or EXTEND is outward; IN or RETRACT is inward (00, Directions). -/
inductive Dir where
  | outward
  | inward
deriving DecidableEq, Repr

/-- The kind a MOVE asks for (04 R55). -/
inductive KindAsked where
  | default
  | hold
  | oneTouch
  | jog
deriving DecidableEq, Repr

/-- What a STOP names: one channel, or ALL (04 R66). -/
inductive StopScope where
  | one (c : Channel)
  | all
deriving DecidableEq, Repr

/-- A posture page (11 R187). -/
inductive Page where
  | zero
  | one
deriving DecidableEq, Repr

/-- Which dwell count of the supply state completes (06 R92). -/
inductive Dwell where
  | fall
  | rise
deriving DecidableEq, Repr

/-- An entry of the wait queue, named by the channel its session covers, or the pump's entry (06 R100). -/
inductive WaitEntry where
  | session (c : Channel)
  | pump
deriving DecidableEq, Repr

/-- The raw values of one frame: for each slot 32 conversions of 12 bits, of which the slot's first N are used
(02 R22). -/
abbrev RawFrame := Vector (Vector (BitVec 12) 32) 16

/-- One command: one row of spec/opcode_table.json. Requests carry the sending link first. -/
inductive Instr where
  -- start-up (12 R196, 01 R12)
  | powerOn
  | settingsBlockLoaded (answers : Bool)
  | postureBlockLoaded (answers : Bool)
  -- receivers (11 R179 to R182)
  | linkByte (l : Link) (b : Byte) (stopGood : Bool)
  | gapTimerExpiry (l : Link)
  | quietTimerExpiry (l : Link)
  | replySent (l : Link)
  -- requests (11 section 11.8)
  | readPosture (l : Link) (page : Page)
  | keep (l : Link)
  | stop (l : Link) (scope : StopScope)
  | move (l : Link) (c : Channel) (d : Dir) (k : KindAsked) (target : Option Word)
  | level (l : Link)
  | jacksUp (l : Link)
  | setLevelTarget (l : Link) (pitch roll : Word)
  | runProgram (l : Link) (number : Byte)
  | resume (l : Link)
  | skipStep (l : Link)
  | abort (l : Link)
  | readEvents (l : Link)
  | setEventEnable (l : Link) (set : Word)
  | readFaults (l : Link)
  | clearFault (l : Link) (h : FaultHolder)
  | readLinkStatus (l : Link)
  | chassisStatus (l : Link) (ignition brake gear : Byte) (speed : Word) (engine : Byte)
  | modeSleep (l : Link)
  | sleepReplyEnd (l : Link)
  | serviceEnter (l : Link)
  | serviceExit (l : Link)
  | motionReset (l : Link)
  | fullReset (l : Link)
  | fullResetReplyEnd (l : Link)
  | fullResetReload
  | readSetting (l : Link) (number : Word)
  | writeSetting (l : Link) (number : Word) (value : List Byte)
  | captureLevel (l : Link)
  -- sampler, supply, levelling counts
  | samplerFrameComplete (raw : RawFrame)
  | outOfWindowLimit (slot : Slot)
  | exceedanceTrip (slot : Slot)
  | hangingCountReached (j : Jack)
  | supplyDwellComplete (d : Dwell)
  | driftCounterTrip
  -- drive outputs and pulse inputs
  | periodBoundary (o : Output)
  | pullInEnd (o : Output)
  | hallEdge (p : Hall)
  | strayTallyLimit (p : Hall)
  | coastWindowClose (p : Hall)
  | stallReport (p : Hall)
  | anemometerEdge
  | noPulse
  | windTrip
  -- timers
  | keepDeadlineExpiry (c : Channel)
  | runLimitExpiry (c : Channel)
  | waitLimitExpiry (e : WaitEntry)
  | stalenessExpiry
  | settleTimerExpiry
  | seatTimerExpiry (i : Slide)
  | lockoutExpiry
  | idleTimerExpiry
  | serviceInactivityExpiry
  | wakeWindowExpiry
  -- serial memory and power
  | memoryWriteDone
  | memoryWriteAbandoned
  | powerLoss
deriving DecidableEq, Repr

end Sys2Proof
end

