-- ==== Sys2Proof/Decode.lean ====
section
/-! DEFINITION. The commands that a word spells by the table's bits. No row of spec/opcode_table.json gives bits
(its "fields" are empty in every row), so no word spells a command here. The requests' frames are decoded from bytes
by the Link Interface (11 R179 to R183): Sys2Proof/Machine/Frames.lean. -/

namespace Sys2Proof

/-- The command spelled by a word of `nbits` bits: none, since no row of the table gives bits. -/
def decodeTableWord (_nbits _w : Nat) : Option Instr := none

end Sys2Proof
end

