-- ==== Sys2Proof/Config.lean ====
section
/-! DEFINITION. Fixed figures of the manual, and the free values for what the manual leaves open. -/

namespace Sys2Proof.Config

/-! ### Free values (no body: nothing can be proved of which value they take) -/

/-- The outcome of the n-th choice the manual leaves open: which of two things is taken first, or whether an
abandoned write has spoilt its block. Log 9, log 10. -/
opaque freeChoice : Nat → Bool

/-- What is stored when a set-valued setting is written with bits that name no member. Log 11. -/
opaque unnamedBits : Nat → Nat

/-- Which listed number of conversions is stored for a written number between two listed ones. Log 12. -/
opaque unlistedConversions : Nat → Fin 4

/-- What the snapshot shows as the current step of a suspended run whose steps are all DONE or SKIPPED. Log 41. -/
opaque noCurrentStep : Nat

/-- What the snapshot shows as the status of the step after the current one where the chain has none. Log 41. -/
opaque noNextStatus : Nat

/-- The n-th write cut short: a byte it leaves in its block, by its place. Log 56. -/
opaque tornByte : Nat → Nat → Byte

/-- The n-th write cut short: in what its block's last two bytes differ from the CRC. Log 56. -/
opaque tornCrc : Nat → Word

/-! ### Times (rules named at each) -/

/-- One tick of the idle clock: the shortest drive period (03 R37). Log 4. -/
def tick : Nat := 50
/-- 02 R19. -/
def framePeriod : Nat := ms 10
/-- 11 R179, R181: gap and quiet timers. -/
def linkGap : Nat := ms 5
/-- 03 R48. -/
def coastTime : Nat := ms 200
/-- 03 R50: start grace and silence. -/
def stallGrace : Nat := ms 400
def stallSilence : Nat := ms 250
/-- 03 R44. -/
def pullInTime : Nat := ms 150
/-- 03 R51. -/
def bounceTime : Nat := ms 1
def quietTime : Nat := ms 3000
/-- 03 R46: a last-edge age is held here once reached. -/
def edgeAgeCap : Nat := ms 60000
/-- 05 R75. -/
def staleTime : Nat := seconds 2
/-- 06 R102. -/
def waitLimit : Nat := seconds 30
/-- 07 R112. -/
def settleTime : Nat := ms 1500
/-- 08 R131. -/
def seatTimeout : Nat := ms 1500
/-- 09 R148. -/
def lockoutTime : Nat := minutes 10
/-- 12 R194. -/
def idleTime : Nat := minutes 30
def serviceTime : Nat := minutes 15
def wakeTime : Nat := seconds 20
/-- Run limits of 04 R68 and stage limits of 07 section 7.1. -/
def slideRunLimit : Nat := seconds 90
def awningRunLimit : Nat := seconds 60
def jackRunLimit : Nat := seconds 60
def stageLimit : Nat := seconds 60
def jacksUpLimit : Nat := seconds 90

/-! ### Duties (08 R131, 09 R148, 07 section 7.1, 03 R44) -/

def slideBase : Nat := 850
def slideSlow : Nat := 450
def creepDuty : Nat := 300
def trimFloor : Nat := 200
def awningDuty : Nat := 800
def touchdownDuty : Nat := 600
def liftMinimum : Nat := 250
def holdDuty : Nat := 350
def fullDuty : Nat := 1000
/-- 03 R50: the duty from which a motor is watched for stall. -/
def stallDuty : Nat := 200

/-! ### Counts and limits -/

/-- 01 R5. -/
def countMax : Nat := 32000
/-- 01 R9, 03 R49. -/
def strayLimit : Nat := 9
/-- 08 R131. -/
def zoneWidth : Nat := 400
def skewDeadband : Nat := 8
def trimGain : Nat := 6
def skewLimit : Nat := 120
def segment : Nat := 256
/-- 10 R177. -/
def pairSkew : Nat := 60
/-- 09 R148. -/
def awningHome : Nat := 200
def gustSpeed : Nat := 110
def calmSpeed : Nat := 80
def speedFactor : Nat := 7000
def speedCeiling : Nat := 600
/-- 06 R92. -/
def dwell : Nat := 50
/-- 06 R96, R97, R100. -/
def retractAmps : Nat := 9
def queueMax : Nat := 8
/-- 07 section 7.1. -/
def steepLimit : Nat := 800
def guardMargin : Nat := 100
def targetLimit : Int := 300
def stopLead : Nat := 3
def syncHold : Int := 150
def syncRelease : Int := 75
def driftBand : Nat := 50
def driftTrip : Nat := 300
def stowedStroke : Nat := 50
/-- 07 R120. -/
def hangingTrip : Nat := 5
/-- 10 R163. -/
def chainLimit : Nat := 16
/-- 11 section 11.1. -/
def payloadMax : Nat := 48
def startByte : Byte := 0x5C
/-- 12 R195. -/
def memoryBytes : Nat := 2048
/-- What a byte of the serial memory that nothing has written reads as. Log 2. -/
def blankByte : Byte := 0
/-- 05 R73. -/
def speedMax : Nat := 2000

/-- How many steps of the work list one event may take; what is left stays in the list and is taken first by the
next event (log 27). -/
def workBound : Nat := 512

end Sys2Proof.Config
end

