-- ==== Sys2Proof/Machine/State.lean ====
section
/-! DEFINITION. Everything the part holds, as plain data, and its value right after power-on. -/

namespace Sys2Proof.Machine

/-! ### Stops -/

/-- Reasons for which a command stops the machine. There are none: every event the manual names leaves the part in a
next state (requests it turns away are answered with a status). -/
inductive Fault
deriving DecidableEq, Repr

/-- Reasons for which a command is not run. -/
inductive Refusal where
  /-- Raised by an arm of `exec` whose command has no meaning yet. Safe: the run stops. No arm raises it. -/
  | notModelled (mnemonic : String)
deriving DecidableEq, Repr

/-! ### Codes of the manual -/

/-- 12 R194. -/
inductive DeviceMode where
  | loading | ready | service | sleep
deriving DecidableEq, Repr

/-- What LOADING is doing (12 R196, R202). -/
inductive LoadStage where
  | none
  | settings
  | posture
  /-- a full reset waits for the write queue to empty -/
  | awaitWrites
deriving DecidableEq, Repr

/-- Link 1 to Link 4, or INTERNAL (01 R10). -/
inductive Owner where
  | link (l : Link)
  | internal
deriving DecidableEq, Repr

/-- 01 R14. -/
inductive FaultKind where
  | stall | skew | seatTimeout | runTimeout | sensor | overcurrent | strokeLimit | tiltGuard
deriving DecidableEq, Repr

/-- The reason codes of 05 R77. -/
inductive Reason where
  | travel | chassisUnknown | notParked | configDefaulted | faulted | unhomed | windLockout | noSupport
  | slidesOut | awningClear | slideMoving | sensorInvalid | tooSteep
deriving DecidableEq, Repr

/-- 04 R69. -/
inductive EndCode where
  | done | stopped | keepLost | interlock | fault | noSupply | timeout | reset
deriving DecidableEq, Repr

/-- 04 R54. -/
inductive Operation where
  | move | level | touchdown | jacksUp
deriving DecidableEq, Repr

/-- 04 R54. -/
inductive Kind where
  | hold | oneTouch | jog
deriving DecidableEq, Repr

/-- 04 R56. -/
inductive Phase where
  | waiting | running | stopping
deriving DecidableEq, Repr

/-- 04 R54: where a session's request came from. -/
inductive Origin where
  | link
  | step (k : StepIndex)
  | windTrip
  | ignition
  | relevel
deriving DecidableEq, Repr

/-- The channel set of a session: one channel, or J1 to J6 together (04 R54). -/
inductive Cover where
  | one (c : Channel)
  | allJacks
deriving DecidableEq, Repr

/-- 11 R188: the events and their bits (11 section 11.8). -/
inductive Event where
  | powerUp | sessionEnd | fault | windTrip | levelDone | levelFailed | levelDrift | programHalt | programEnd
  | driveAway | supplyState | mode | configDefaulted | postureLost
deriving DecidableEq, Repr

/-- 06 R91. -/
inductive SupplyState where
  | critical | low | battery | strong
deriving DecidableEq, Repr

/-- 05 R74. -/
inductive ChassisCondition where
  | unknown | travel | parked | unparked
deriving DecidableEq, Repr

/-! ### Stored settings (12 section 12.4) -/

/-- The settings part of a slot record (02 section 2.2). The sign pattern has bit 3 for the first sign, 1 for −. -/
structure SlotSettings where
  enabled : Bool
  conversions : Nat
  signs : BitVec 4
  gain : Nat
  offset : Int
  windowMin : Int
  windowMax : Int
  threshold : Int
  release : Int
  tripCount : Nat
deriving DecidableEq, Repr

/-- 10 R162. -/
inductive StepKind where
  | touchdown | level | jacksUp | slideOut | slideIn | awningIn | awningOut | confirm
deriving DecidableEq, Repr

/-- A step record of the step pool (10 R162). `next = none` is "end". -/
structure StepRec where
  kind : StepKind
  channel : Option Channel
  suspendAfter : Bool
  pairNext : Bool
  skipIfDone : Bool
  next : Option StepIndex
deriving DecidableEq, Repr

/-- The stored settings. Permission sets use the bits of the READ_LINK_STATUS reply (11 section 11.8); a conflict set
has bit 0 for S1 (12 section 12.4). -/
structure Settings where
  permissions : Vector (BitVec 6) 4
  pumpAmps : Nat
  slideAmps : Nat
  awningAmps : Nat
  keepWindow : Nat
  tolerance : Nat
  autoRelevel : Bool
  jackX : Vector Int 6
  jackY : Vector Int 6
  maxStroke : Vector Nat 6
  slideFull : Vector Nat 4
  awningFull : Vector Nat 2
  clearance : Vector Nat 2
  windTripCount : Nat
  support : Vector Bool 4
  conflict : Vector (BitVec 4) 2
  autoRetract : Vector Bool 2
  slots : Vector SlotSettings 16
  programs : Vector (Option StepIndex) 4
  pool : Vector StepRec 32
deriving DecidableEq, Repr

/-- The slot defaults of 02 section 2.2: by role. Slots without an exceedance counter do not have the last three. -/
def defaultTilt : SlotSettings := ⟨true, 16, 0b0000, 750, -1500, -1500, 1500, 0, 0, 1⟩
def defaultPressure : SlotSettings := ⟨true, 8, 0b0110, 1250, 0, -100, 2600, 250, 150, 5⟩
def defaultStroke : SlotSettings := ⟨true, 8, 0b0101, 1750, 0, -100, 3600, 0, 0, 1⟩
def defaultSupply : SlotSettings := ⟨true, 4, 0b0000, 500, 0, 500, 1900, 0, 0, 1⟩
def defaultPump : SlotSettings := ⟨true, 4, 0b0000, 625, 0, 0, 2500, 1800, 1500, 3⟩

def defaultSlots : Vector SlotSettings 16 :=
  #v[defaultTilt, defaultTilt,
     defaultPressure, defaultPressure, defaultPressure, defaultPressure, defaultPressure, defaultPressure,
     defaultStroke, defaultStroke, defaultStroke, defaultStroke, defaultStroke, defaultStroke,
     defaultSupply, defaultPump]

/-- A CONFIRM step with no channel, no flags and next end (10 R164). -/
def idleStep : StepRec := ⟨.confirm, none, false, false, false, none⟩

/-- The default step pool of 10 R164. -/
def defaultPool : Vector StepRec 32 :=
  #v[⟨.level, none, false, false, true, some 1⟩,
     ⟨.confirm, none, false, false, false, some 2⟩,
     ⟨.slideOut, some (.slide 0), false, true, true, some 3⟩,
     ⟨.slideOut, some (.slide 1), false, false, true, some 4⟩,
     ⟨.slideOut, some (.slide 2), false, true, true, some 5⟩,
     ⟨.slideOut, some (.slide 3), false, false, true, none⟩,
     ⟨.awningIn, some (.awning 0), false, false, true, some 7⟩,
     ⟨.awningIn, some (.awning 1), false, false, true, some 8⟩,
     ⟨.slideIn, some (.slide 0), false, true, true, some 9⟩,
     ⟨.slideIn, some (.slide 1), false, false, true, some 10⟩,
     ⟨.slideIn, some (.slide 2), false, true, true, some 11⟩,
     ⟨.slideIn, some (.slide 3), false, false, true, some 12⟩,
     ⟨.jacksUp, none, false, false, true, none⟩,
     idleStep, idleStep, idleStep, idleStep, idleStep, idleStep, idleStep, idleStep, idleStep, idleStep,
     idleStep, idleStep, idleStep, idleStep, idleStep, idleStep, idleStep, idleStep, idleStep]

/-- The default of every setting: 11 R184, 06 section 6.2, 04 R59, 07 section 7.1, 08 R131, 09 R148, 05 section 5.2,
02 section 2.2, 10 R164. -/
def Settings.defaults : Settings where
  permissions := #v[0b011111, 0b011111, 0b001110, 0b100000]
  pumpAmps := 140
  slideAmps := 44
  awningAmps := 9
  keepWindow := 300
  tolerance := 20
  autoRelevel := false
  jackX := #v[5200, 5200, 300, 300, -4300, -4300]
  jackY := #v[1150, -1150, 1150, -1150, 1150, -1150]
  maxStroke := #v[3500, 3500, 3500, 3500, 3500, 3500]
  slideFull := #v[9600, 9600, 9600, 9600]
  awningFull := #v[2400, 2400]
  clearance := #v[150, 150]
  windTripCount := 3
  support := #v[true, true, true, true]
  conflict := #v[0b0011, 0b0100]
  autoRetract := #v[true, true]
  slots := defaultSlots
  programs := #v[some 0, some 6, none, none]
  pool := defaultPool

/-! ### Mode Controller -/

/-- The wake window (12 R200): when it runs out, and whether it has run out while sessions were still present. Its
wake-frame mark is "the window is closed": the first request both sets the mark and closes the window. -/
structure WakeWindow where
  due : Nat
  expired : Bool
deriving DecidableEq, Repr

structure ModeUnit where
  mode : DeviceMode := .loading
  load : LoadStage := .settings
  serviceOwner : Option Link := none
  settingsChanged : Bool := false
  settingsDefaulted : Bool := false
  /-- set by the first request after a wake (12 R200) -/
  wakeFrameMark : Bool := false
  idleDue : Option Nat := none
  serviceDue : Option Nat := none
  wake : Option WakeWindow := none
deriving DecidableEq, Repr

/-! ### Link Interface and Event Unit -/

/-- What the end of a reply leads to (11 R182, 12 R199, R202). -/
inductive AfterReply where
  | nothing | sleep | fullReset
deriving DecidableEq, Repr

/-- 11 R179. `frame` holds the bytes taken since the start byte; `reply` whether a byte has arrived meanwhile.
`sleptReply` is REPLY too: a reply that was being sent at a Sleep entry, during which bytes are ignored until it ends, in
HUNT (11 R191). -/
inductive Receiver where
  | hunt
  | frame (taken : List Byte)
  | reply (late : Bool) (after : AfterReply)
  | sleptReply (after : AfterReply)
  | discard
deriving DecidableEq, Repr

/-- 11 R181. -/
structure LinkFlags where
  short : Bool := false
  overlong : Bool := false
  framing : Bool := false
  crcFail : Bool := false
  overrun : Bool := false
deriving DecidableEq, Repr

/-- The image of both pages (11 R187), each the 47 bytes that follow the status. -/
structure Snapshot where
  page0 : List Byte
  page1 : List Byte
deriving DecidableEq, Repr

structure LinkRec where
  receiver : Receiver := .hunt
  lastByteAt : Nat := 0
  flags : LinkFlags := {}
  latch : Option Snapshot := none
  lastReply : List Byte := []
deriving DecidableEq, Repr

/-- One link's part of the Event Unit (11 R188 to R190): bit n of a set is event n. -/
structure EventBox where
  pending : Word
  enable : Word
  line : Bool
deriving DecidableEq, Repr

/-! ### Sensor Sampler -/

/-- The result part of a slot record (02 section 2.2). -/
structure SlotResult where
  lastValid : Int := 0
  sampleValid : Bool := false
  outCount : Nat := 0
  counter : Nat := 0
  tripped : Bool := false
deriving DecidableEq, Repr

/-- 02 R32. -/
structure TiltFilter where
  value : Int := 0
  seeded : Bool := false
deriving DecidableEq, Repr

structure Sampler where
  running : Bool := false
  frameStart : Nat := 0
  /-- the settings the frame in progress began with (02 R21) -/
  inForce : Vector SlotSettings 16 := defaultSlots
  slots : Vector SlotResult 16 := Vector.replicate 16 {}
  pitch : TiltFilter := {}
  roll : TiltFilter := {}
deriving DecidableEq, Repr

/-! ### Drive Generator and Pulse Counter Unit -/

/-- 03 R37. A direction of none is neutral; `boundaryAt` is the period position, as the time of a boundary not yet
taken. -/
structure DriveOutput where
  applied : Nat := 0
  buffered : Option Nat := none
  dir : Option Dir := none
  pendingDir : Option Dir := none
  lastDir : Option Dir := none
  boundaryAt : Nat := 0
  pullInAt : Option Nat := none
deriving DecidableEq, Repr

/-- 03 R46, R48. -/
structure Coast where
  dir : Dir
  closesAt : Nat
deriving DecidableEq, Repr

/-- 03 R46. -/
structure HallInput where
  count : Nat := 0
  lastEdgeAt : Nat := 0
  coast : Option Coast := none
  stray : Nat := 0
  stallStart : Option Nat := none
  stallReported : Bool := false
deriving DecidableEq, Repr

/-- 03 R51. Times in µs, the period in ms. -/
structure Anemometer where
  on : Bool := true
  lastEdge : Option Nat := none
  period : Option Nat := none
  quiet : Bool := false
deriving DecidableEq, Repr

structure PulseUnit where
  /-- P1 to P10 are off since this time (03 R52); none while they are on -/
  offSince : Option Nat := none
  inputs : Vector HallInput 10 := Vector.replicate 10 {}
  wind : Anemometer := {}
deriving DecidableEq, Repr

/-! ### Motion Arbiter -/

/-- 04 R54. Run time: `runLeft` stood at the time `runFrom` if it is counting. `jogged`: it is or has been a JOG, which on a
slide is creep for its whole life (08 R135). -/
structure Session where
  cover : Cover
  op : Operation
  owner : Owner
  origin : Origin
  kind : Kind
  dir : Option Dir
  target : Option Nat
  creep : Bool
  jogged : Bool
  phase : Phase
  keepDue : Option Nat
  runLimit : Nat
  runLeft : Nat
  runFrom : Option Nat
  pendingEnd : Option EndCode
deriving DecidableEq, Repr

/-! ### Posture record -/

/-- 01 R14. -/
structure FaultRec where
  kind : Option FaultKind := none
  further : Bool := false
  seen : Vector Bool 4 := Vector.replicate 4 false
deriving DecidableEq, Repr

/-- 01 R2, 04 R70. -/
structure LastEnd where
  code : EndCode
  reason : Option Reason
  owner : Owner
  op : Operation
deriving DecidableEq, Repr

/-- 01 R3, R4. -/
inductive JackState where
  | stowed | extending | retracting | contact | deployed
deriving DecidableEq, Repr

structure JackEntry where
  state : JackState := .stowed
  fault : FaultRec := {}
  lastEnd : Option LastEnd := none
deriving DecidableEq, Repr

/-- 01 R6. -/
inductive SlideState where
  | unhomed | stowed | movingOut | movingIn | partially | extended
deriving DecidableEq, Repr

inductive Motor where
  | front | rear
deriving DecidableEq, Repr

/-- 08 R131: NONE, or ONE_SEATED with the seated motor and the time the seat timer runs out. -/
inductive Seating where
  | none
  | oneSeated (m : Motor) (due : Nat)
deriving DecidableEq, Repr

/-- A slide's channel entry and slide record (01 R6, 08 R131). The counts are those of its pulse inputs. `wasStowed`,
`seatedHome` and `stalledOut` are what the table of 01 R6 reads: STOWED before the session became RUNNING and unmoved
since; just seated at home; stopped by a stall while moving out in the out zone. -/
structure SlideEntry where
  state : SlideState := .unhomed
  homed : Bool := false
  fault : FaultRec := {}
  lastEnd : Option LastEnd := none
  seating : Seating := .none
  lastFront : Nat := 0
  lastRear : Nat := 0
  lastDir : Option Dir := none
  wasStowed : Bool := false
  seatedHome : Bool := false
  stalledOut : Bool := false
deriving DecidableEq, Repr

/-- 01 R7. -/
inductive AwningState where
  | unhomed | stowed | extending | retracting | partially | extended
deriving DecidableEq, Repr

/-- An awning's channel entry (01 R7, 09 R148). -/
structure AwningEntry where
  state : AwningState := .unhomed
  homed : Bool := false
  fault : FaultRec := {}
  lastEnd : Option LastEnd := none
  wasStowed : Bool := false
  seatedHome : Bool := false
deriving DecidableEq, Repr

/-! ### Interlock Unit -/

/-- 05 R73. -/
inductive Ignition where
  | off | acc | on
deriving DecidableEq, Repr

inductive Gear where
  | park | neutral | other
deriving DecidableEq, Repr

structure ChassisRecord where
  ignition : Ignition
  brakeSet : Bool
  gear : Gear
  speed : Nat
  engine : Bool
deriving DecidableEq, Repr

/-- 05 R73 to R75, R87, R88. `current` is false once the staleness timer has run out. -/
structure InterlockUnit where
  record : Option ChassisRecord := none
  current : Bool := false
  staleDue : Option Nat := none
  driveAway : Bool := false
  alarm : Bool := false
deriving DecidableEq, Repr

/-! ### Supply Budget Unit -/

/-- 06 R95, R98, R100: a session, or the pump with the jack sessions that use it or wait for it, in order. -/
inductive Holder where
  | session (k : Cover)
  | pump (users : List Cover)
deriving DecidableEq, Repr

/-- 06 R95: a BUDGET entry has its grant order; a RESERVE entry has none. -/
structure Allotment where
  holder : Holder
  amps : Nat
  order : Option Nat
deriving DecidableEq, Repr

/-- 06 R100. -/
structure QueueEntry where
  holder : Holder
  amps : Nat
  enteredAt : Nat
deriving DecidableEq, Repr

structure SupplyUnit where
  state : SupplyState := .battery
  fallCount : Nat := 0
  riseCount : Nat := 0
  allotments : List Allotment := []
  queue : List QueueEntry := []
  nextOrder : Nat := 1
deriving DecidableEq, Repr

/-! ### Level Controller -/

/-- 07 R106. -/
inductive LevelState where
  | idle | touchdown | settle | lift | recontact | holding | retracting
deriving DecidableEq, Repr

/-- 07 R107. -/
inductive LevelOutcome where
  | none | levelled | limit | notReached | tooSteep | stopped | fault
deriving DecidableEq, Repr

/-- One jack's part of the lift plan (07 R115 to R118). `moving`: not yet stopped at its target. -/
structure JackPlan where
  start : Nat := 0
  target : Nat := 0
  planned : Nat := 0
  duty : Nat := 0
  moving : Bool := false
  held : Bool := false
deriving DecidableEq, Repr

structure LevelUnit where
  state : LevelState := .idle
  passLimit : Nat := 0
  outcome : LevelOutcome := .none
  passes : Nat := 0
  residualPitch : Int := 0
  residualRoll : Int := 0
  clamped : Bool := false
  plan : Vector JackPlan 6 := Vector.replicate 6 {}
  /-- tilt-guard baseline and the targets of the measurement that began the pass (07 R119) -/
  basePitch : Nat := 0
  baseRoll : Nat := 0
  guardPitch : Int := 0
  guardRoll : Int := 0
  hangCount : Vector Nat 6 := Vector.replicate 6 0
  hanging : Vector Bool 6 := Vector.replicate 6 false
  settleDue : Option Nat := none
  drift : Nat := 0
  deferred : Bool := false
  pitchTarget : Int := 0
  rollTarget : Int := 0
deriving DecidableEq, Repr

/-! ### Program Sequencer -/

/-- 10 R165. -/
inductive StepStatus where
  | pending | running | done | skipped | interrupted | failed | paused
deriving DecidableEq, Repr

/-- 10 R165. -/
inductive SuspendReason where
  | busy
  | noSupply
  | refused (r : Reason)
  | keepLost | stopped | interlock | fault
  | limit | notReached | tooSteep
  | confirm | suspendAfter | runKeepLost
deriving DecidableEq, Repr

structure RunStep where
  index : StepIndex
  status : StepStatus
deriving DecidableEq, Repr

/-- The run record (10 R165). `pair` holds the chain position of the first step of an active pair; its partner, the
later-started slide, is the next position. `pairWaits`: a RESUME's pair judgement waits on the first step's grant
(10 R168, R176). `suspendOwed`: a step with suspend_after is DONE and the advance waits on its partner (10 R170). -/
structure RunRecord where
  program : Fin 4
  owner : Link
  suspended : Bool
  steps : List RunStep
  reason : Option SuspendReason
  keepDue : Nat
  pair : Option Nat
  pairWaits : Bool
  suspendOwed : Bool
deriving DecidableEq, Repr

/-- 10 R165. -/
inductive RunOutcome where
  | none | completed | aborted | reset
deriving DecidableEq, Repr

structure ProgramUnit where
  run : Option RunRecord := none
  lastOutcome : RunOutcome := .none
deriving DecidableEq, Repr

/-! ### Wind Monitor -/

structure WindUnit where
  speed : Nat := 0
  gusts : Nat := 0
  lockoutDue : Option Nat := none
deriving DecidableEq, Repr

/-! ### Serial memory (12 R195, R201) -/

inductive Block where
  | settings | posture
deriving DecidableEq, Repr

structure SlideImage where
  front : Nat
  rear : Nat
  state : SlideState
  homed : Bool
deriving DecidableEq, Repr

structure AwningImage where
  count : Nat
  state : AwningState
  homed : Bool
deriving DecidableEq, Repr

structure JackImage where
  state : JackState
  stroke : Nat
deriving DecidableEq, Repr

structure PostureImage where
  slides : Vector SlideImage 4
  awnings : Vector AwningImage 2
  jacks : Vector JackImage 6
deriving DecidableEq, Repr

/-- The image a write captured when it began (12 R201). -/
inductive WriteImage where
  | settings (x : Settings)
  | posture (x : PostureImage)
deriving DecidableEq, Repr

/-- The serial memory's bytes by address, in the canonical form of `Memory.wf` (an unlisted address is blank, log 2), and
the write queue, pending writes oldest first. -/
structure MemoryUnit where
  bytes : List Host.Cell := []
  writing : Option WriteImage := none
  pendingWrites : List Block := []
deriving DecidableEq, Repr

/-! ### Work of the event in progress -/

/-- What changed, for the Interlock Unit's re-evaluation (05 R84). -/
inductive Change where
  | chassis
  | jacks
  | levelled
  | slides
  | awning (a : Awning)
  | lockout
  | settings
deriving DecidableEq, Repr

/-- What one block hands to another inside an event. The first two are taken before the rest (04 R70). -/
inductive Task where
  /-- an input of the interlock checks changed (05 R84) -/
  | reevaluate (ch : Change)
  /-- an output of a session reached zero (03 R42, 04 R67) -/
  | zeroReached (k : Cover)
  /-- the queue head is re-examined (06 R101) -/
  | examineHead
  /-- a step session ended (10 R169) -/
  | stepEnded (k : StepIndex) (code : EndCode) (outcome : LevelOutcome)
  /-- a waiting step session was granted (10 R168) -/
  | stepGranted (k : StepIndex)
  /-- the run is judged for an advance (10 R170) -/
  | advance
  /-- a deferred relevel is judged (07 R125) -/
  | relevel
deriving DecidableEq, Repr

/-- The work list of the event in progress: empty between events. -/
structure Work where
  urgent : List Task := []
  later : List Task := []
deriving DecidableEq, Repr

/-! ### The whole part -/

structure State where
  now : Nat := 0
  powered : Bool := true
  control : ModeUnit := {}
  settings : Settings := Settings.defaults
  links : Vector LinkRec 4 := Vector.replicate 4 {}
  events : Vector EventBox 4 := Vector.replicate 4 ⟨1, 0, false⟩
  sampler : Sampler := {}
  drive : Vector DriveOutput 23 := Vector.replicate 23 {}
  pulse : PulseUnit := {}
  sessions : List Session := []
  jacks : Vector JackEntry 6 := Vector.replicate 6 {}
  slides : Vector SlideEntry 4 := Vector.replicate 4 {}
  awnings : Vector AwningEntry 2 := Vector.replicate 2 {}
  pumpFault : FaultRec := {}
  interlock : InterlockUnit := {}
  supply : SupplyUnit := {}
  level : LevelUnit := {}
  program : ProgramUnit := {}
  wind : WindUnit := {}
  memory : MemoryUnit := {}
  freeCount : Nat := 0
  work : Work := {}
  pending : List Instr := []
deriving DecidableEq, Repr

/-- The period of each drive output (03 R37). -/
def drivePeriod (o : Output) : Nat := if o.val < 10 then 50 else if o.val = 10 then ms 1 else ms 5

/-- The outputs right after power-on (03 R45): the first boundary of each stands one period ahead (log 18). -/
def freshDrive (now : Nat) : Vector DriveOutput 23 :=
  Vector.ofFn fun o => { boundaryAt := now + drivePeriod o }

/-- The part right after power-on (12 R196): LOADING, the settings block being read, POWER_UP pending on each link. -/
def State.reset : State := { drive := freshDrive 0 }

end Sys2Proof.Machine
end

