-- ==== Sys2Proof/Machine/Operands.lean ====
section
/-! DEFINITION. How the names of commands and records map onto each other: vectors of units, the slots, outputs and
inputs of each channel (01 R2), and the codes of 11 section 11.8. -/

namespace Sys2Proof

/-! ### Channels -/

def Channel.isJack : Channel → Bool
  | .jack _ => true
  | _ => false

def Channel.isSlide : Channel → Bool
  | .slide _ => true
  | _ => false

def Channel.isAwning : Channel → Bool
  | .awning _ => true
  | _ => false

def Dir.flip : Dir → Dir
  | .outward => .inward
  | .inward => .outward

/-- Channel codes of 11 section 11.8. -/
def Channel.code : Channel → Nat
  | .jack j => 1 + j.val
  | .slide i => 7 + i.val
  | .awning a => 11 + a.val

def FaultHolder.code : FaultHolder → Nat
  | .channel c => c.code
  | .pump => 13

end Sys2Proof

namespace Sys2Proof.Machine

/-! ### Vectors of units -/

/-- `v` with entry `i` replaced by `f` of it. -/
def upd {α : Type} {n : Nat} (v : Vector α n) (i : Fin n) (f : α → α) : Vector α n := v.set i (f v[i])

/-- `v` with every entry `i` replaced by `f i` of it. -/
def updAll {α : Type} {n : Nat} (v : Vector α n) (f : Fin n → α → α) : Vector α n :=
  (List.finRange n).foldl (fun v i => upd v i (f i)) v

def allJacks : List Jack := [0, 1, 2, 3, 4, 5]
def allSlides : List Slide := [0, 1, 2, 3]
def allAwnings : List Awning := [0, 1]
def allLinks : List Link := [0, 1, 2, 3]
def allSlots : List Slot := List.finRange 16
def allOutputs : List Output := List.finRange 23
def allHalls : List Hall := List.finRange 10

/-- The twelve motion channels in the order of 01 R2. -/
def allChannels : List Channel :=
  [.jack 0, .jack 1, .jack 2, .jack 3, .jack 4, .jack 5, .slide 0, .slide 1, .slide 2, .slide 3, .awning 0, .awning 1]

/-! ### The channel table of 01 R2 and the roles of 02 R20, 03 R37, R46 -/

def pressureSlot (j : Jack) : Slot := ⟨2 + j.val, by omega⟩
def strokeSlot (j : Jack) : Slot := ⟨8 + j.val, by omega⟩
def supplySlot : Slot := 14
def pumpSlot : Slot := 15

/-- The jack a pressure or stroke slot serves. -/
def jackOfSlot (slot : Slot) : Option Jack :=
  if h : 2 ≤ slot.val ∧ slot.val ≤ 7 then some ⟨slot.val - 2, by omega⟩
  else if h : 8 ≤ slot.val ∧ slot.val ≤ 13 then some ⟨slot.val - 8, by omega⟩
  else none

/-- The jack whose contact a slot's tripped flag is (02 R30). -/
def contactJack (slot : Slot) : Option Jack :=
  if h : 2 ≤ slot.val ∧ slot.val ≤ 7 then some ⟨slot.val - 2, by omega⟩ else none

def extendValve (j : Jack) : Output := ⟨11 + j.val, by omega⟩
def retractValve (j : Jack) : Output := ⟨17 + j.val, by omega⟩
def frontOutput (i : Slide) : Output := ⟨2 * i.val, by omega⟩
def rearOutput (i : Slide) : Output := ⟨2 * i.val + 1, by omega⟩
def awningOutput (a : Awning) : Output := ⟨8 + a.val, by omega⟩
def pumpOutput : Output := 10

def frontHall (i : Slide) : Hall := ⟨2 * i.val, by omega⟩
def rearHall (i : Slide) : Hall := ⟨2 * i.val + 1, by omega⟩
def awningHall (a : Awning) : Hall := ⟨8 + a.val, by omega⟩

/-- The serving output of a hall input (03 section 3.5). -/
def servingOutput (p : Hall) : Output := ⟨p.val, by omega⟩

/-- The hall input that an output serves, for the ten motor outputs. -/
def hallOf (o : Output) : Option Hall := if h : o.val < 10 then some ⟨o.val, h⟩ else none

/-- The channel's other output, for a slide's input (03 R47). -/
def otherOutput (p : Hall) : Option Output :=
  if p.val < 8 then some (if p.val % 2 = 0 then ⟨p.val + 1, by omega⟩ else ⟨p.val - 1, by omega⟩) else none

/-- The channel a hall input belongs to. -/
def channelOfHall (p : Hall) : Channel :=
  if h : p.val < 8 then .slide ⟨p.val / 2, by omega⟩ else .awning ⟨p.val - 8, by omega⟩

/-- The motor of a slide that a hall input watches: front on the odd-named input. -/
def motorOfHall (p : Hall) : Motor := if p.val % 2 = 0 then .front else .rear

/-- The channel an output serves; the pump output serves none. -/
def channelOfOutput (o : Output) : Option Channel :=
  if h : o.val < 8 then some (.slide ⟨o.val / 2, by omega⟩)
  else if h : o.val < 10 then some (.awning ⟨o.val - 8, by omega⟩)
  else if h : o.val = 10 then none
  else if h : o.val < 17 then some (.jack ⟨o.val - 11, by omega⟩)
  else some (.jack ⟨o.val - 17, by omega⟩)

def motorOutput (i : Slide) : Motor → Output
  | .front => frontOutput i
  | .rear => rearOutput i

def Motor.other : Motor → Motor
  | .front => .rear
  | .rear => .front

def hallsOf : Channel → List Hall
  | .jack _ => []
  | .slide i => [frontHall i, rearHall i]
  | .awning a => [awningHall a]

def outputsOf : Channel → List Output
  | .jack j => [extendValve j, retractValve j]
  | .slide i => [frontOutput i, rearOutput i]
  | .awning a => [awningOutput a]

/-! ### Channel sets of sessions (04 R54) -/

def Cover.channels : Cover → List Channel
  | .one c => [c]
  | .allJacks => [.jack 0, .jack 1, .jack 2, .jack 3, .jack 4, .jack 5]

def Cover.covers (k : Cover) (c : Channel) : Bool :=
  match k with
  | .one c' => c' = c
  | .allJacks => c.isJack

def Cover.isJacks : Cover → Bool
  | .one c => c.isJack
  | .allJacks => true

def Cover.isSlide : Cover → Bool
  | .one c => c.isSlide
  | .allJacks => false

def Cover.isAwning : Cover → Bool
  | .one c => c.isAwning
  | .allJacks => false

/-- The two channel sets share a channel. -/
def Cover.meets (k m : Cover) : Bool :=
  match k, m with
  | .one c, .one c' => c = c'
  | .one c, .allJacks => c.isJack
  | .allJacks, .one c => c.isJack
  | .allJacks, .allJacks => true

def outputsOfCover (k : Cover) : List Output := k.channels.flatMap outputsOf

/-! ### Codes of 11 section 11.8 -/

def channelOfCode (n : Nat) : Option Channel :=
  if h : 1 ≤ n ∧ n ≤ 6 then some (.jack ⟨n - 1, by omega⟩)
  else if h : 7 ≤ n ∧ n ≤ 10 then some (.slide ⟨n - 7, by omega⟩)
  else if h : 11 ≤ n ∧ n ≤ 12 then some (.awning ⟨n - 11, by omega⟩)
  else none

def holderOfCode (n : Nat) : Option FaultHolder :=
  if n = 13 then some .pump else (channelOfCode n).map .channel

def FaultKind.code : FaultKind → Nat
  | .stall => 1 | .skew => 2 | .seatTimeout => 3 | .runTimeout => 4 | .sensor => 5 | .overcurrent => 6
  | .strokeLimit => 7 | .tiltGuard => 8

def Reason.code : Reason → Nat
  | .travel => 1 | .chassisUnknown => 2 | .notParked => 3 | .configDefaulted => 4 | .faulted => 5 | .unhomed => 6
  | .windLockout => 7 | .noSupport => 8 | .slidesOut => 9 | .awningClear => 10 | .slideMoving => 11
  | .sensorInvalid => 12 | .tooSteep => 13

def Owner.code : Owner → Nat
  | .link l => 1 + l.val
  | .internal => 5

def Event.bit : Event → Nat
  | .powerUp => 0 | .sessionEnd => 1 | .fault => 2 | .windTrip => 3 | .levelDone => 4 | .levelFailed => 5
  | .levelDrift => 6 | .programHalt => 7 | .programEnd => 8 | .driveAway => 9 | .supplyState => 10 | .mode => 11
  | .configDefaulted => 12 | .postureLost => 13

/-- The event set that holds one event. -/
def Event.mask (e : Event) : Word := 1#16 <<< e.bit

/-- The reply statuses of 11 section 11.8. -/
inductive Status where
  | ok | queued | clamped | busy | refused | noSupply | notPermitted | notSeen | badArg | badLength | unknownRequest
  | badState | badProgram | notReady | noSnapshot
deriving DecidableEq, Repr

def Status.code : Status → Nat
  | .ok => 0 | .queued => 1 | .clamped => 2 | .busy => 3 | .refused => 4 | .noSupply => 5 | .notPermitted => 6
  | .notSeen => 7 | .badArg => 8 | .badLength => 9 | .unknownRequest => 10 | .badState => 11 | .badProgram => 12
  | .notReady => 13 | .noSnapshot => 14

/-- A reply before framing (11 R182): its status, the reason after REFUSED, its data, and what its end leads to. -/
structure Reply where
  status : Status
  reason : Option Reason := none
  data : List Byte := []
  after : AfterReply := .nothing
deriving DecidableEq, Repr

/-- A byte from a number. -/
def byte (n : Nat) : Byte := BitVec.ofNat 8 n

/-- The bytes of a reply's payload: status, then the reason after REFUSED, then the data (11 R182). -/
def Reply.payload (r : Reply) : List Byte :=
  byte r.status.code :: ((r.reason.map fun x => [byte x.code]).getD [] ++ r.data)

/-! ### Packing (11 section 11.8: high byte first, bit numbers from the last byte's low end) -/

/-- Fields of given widths, from the high bit, as one number. -/
def pack (fields : List (Nat × Nat)) : Nat := fields.foldl (fun acc f => acc * 2 ^ f.1 + f.2 % 2 ^ f.1) 0

/-- The low `n` bytes of a number, high byte first. -/
def bytesOf : Nat → Nat → List Byte
  | 0, _ => []
  | n + 1, x => byte (x / 256 ^ n) :: bytesOf n x

/-- A two's complement field of `w` bits. -/
def signed (w : Nat) (x : Int) : Nat := (x % (2 ^ w : Nat)).toNat

/-- `x` limited to `lo` to `hi`. -/
def clampInt (lo hi x : Int) : Int := if x < lo then lo else if hi < x then hi else x

def clampNat (lo hi x : Nat) : Nat := if x < lo then lo else if hi < x then hi else x

def boolBit (b : Bool) : Nat := if b then 1 else 0

/-! ### CRC-16 (11 R180) -/

/-- One step of the register: a shift toward the high end, and 0x3D65 if a 1 was shifted out. -/
def crcShift (r : Word) : Word := if r.msb then (r <<< 1) ^^^ 0x3D65 else r <<< 1

/-- One byte into the register. -/
def crcByte (r : Word) (b : Byte) : Word :=
  let r := r ^^^ (b.setWidth 16 <<< 8)
  crcShift (crcShift (crcShift (crcShift (crcShift (crcShift (crcShift (crcShift r)))))))

/-- The CRC of the length, code and payload bytes. -/
def crc16 (bytes : List Byte) : Word := bytes.foldl crcByte 0xFFFF

/-- Bytes with their CRC behind them, high byte first (11 section 11.1, 12 R195). -/
def withCrc (body : List Byte) : List Byte := body ++ bytesOf 2 (crc16 body).toNat

/-- The bytes of a frame: start byte, length, code, payload, CRC high byte first (11 section 11.1). -/
def frameBytes (code : Byte) (payload : List Byte) : List Byte :=
  Config.startByte :: withCrc (byte payload.length :: code :: payload)

end Sys2Proof.Machine
end

