-- ==== Sys2Proof/Machine/Flags.lean ====
section
/-! DEFINITION. The conditions the part derives from what it holds: positions, whole-coach flags, chassis condition,
drive-away, budget, and the views of the session table. -/

namespace Sys2Proof.Machine

/-! ### Whole-coach flags (01 R11) -/

/-- 02 R28. -/
def supplyValid (s : State) : Bool := s.sampler.slots[supplySlot].sampleValid

/-- 02 R28: both tilt slots' sample-valid flags. -/
def attitudeValid (s : State) : Bool := s.sampler.slots[(0 : Slot)].sampleValid && s.sampler.slots[(1 : Slot)].sampleValid

/-- 01 R11: set exactly while the Level Controller is in HOLDING. -/
def levelled (s : State) : Bool := s.level.state = .holding

/-- 05 R74: TRAVEL depends on speed alone; a record that is not current counts for nothing here. -/
def conditionOf (record : Option ChassisRecord) (current : Bool) : ChassisCondition :=
  match record, current with
  | some r, true =>
    if 0 < r.speed then .travel
    else if r.brakeSet && r.gear != .other then .parked
    else .unparked
  | _, _ => .unknown

def chassisCondition (s : State) : ChassisCondition := conditionOf s.interlock.record s.interlock.current

/-- 12 R199: no last record counts as not ON. -/
def ignitionOn (s : State) : Bool :=
  match s.interlock.record with
  | some r => r.ignition = .on
  | none => false

/-! ### Positions (01 R3, R5; 08 R131) -/

def slideFront (i : Slide) (s : State) : Nat := s.pulse.inputs[frontHall i].count
def slideRear (i : Slide) (s : State) : Nat := s.pulse.inputs[rearHall i].count

/-- 01 R5: the sum of the counts divided by 2, truncated. -/
def slidePosition (i : Slide) (s : State) : Nat := (slideFront i s + slideRear i s) / 2

/-- 00, Signs: front count minus rear count. -/
def slideSkew (i : Slide) (s : State) : Int := (slideFront i s : Int) - (slideRear i s : Int)

def awningPosition (a : Awning) (s : State) : Nat := s.pulse.inputs[awningHall a].count

/-- 01 R3: the last valid value of the stroke slot. -/
def jackStroke (j : Jack) (s : State) : Nat := s.sampler.slots[strokeSlot j].lastValid.toNat

/-- 02 R30. -/
def contact (j : Jack) (s : State) : Bool := s.sampler.slots[pressureSlot j].tripped

def position (c : Channel) (s : State) : Nat :=
  match c with
  | .jack j => jackStroke j s
  | .slide i => slidePosition i s
  | .awning a => awningPosition a s

/-- 01 R8: a jack is always homed. -/
def homed (c : Channel) (s : State) : Bool :=
  match c with
  | .jack _ => true
  | .slide i => s.slides[i].homed
  | .awning a => s.awnings[a].homed

def isStowed (c : Channel) (s : State) : Bool :=
  match c with
  | .jack j => s.jacks[j].state = .stowed
  | .slide i => s.slides[i].state = .stowed
  | .awning a => s.awnings[a].state = .stowed

/-! ### Stopped states (01 R4, R6, R7) -/

/-- 01 R4. -/
def jackRest (j : Jack) (s : State) : JackState :=
  if contact j s then .contact else if jackStroke j s ≤ Config.stowedStroke then .stowed else .deployed

/-- 01 R6, taken in its order. -/
def slideRest (i : Slide) (s : State) : SlideState :=
  let e := s.slides[i]
  if !e.homed then .unhomed
  else if e.seatedHome then .stowed
  else if e.wasStowed then .stowed
  else if s.settings.slideFull[i] ≤ slidePosition i s + Config.zoneWidth ∨ e.stalledOut then .extended
  else .partially

/-- 01 R7, taken in its order. -/
def awningRest (a : Awning) (s : State) : AwningState :=
  let e := s.awnings[a]
  if !e.homed then .unhomed
  else if e.seatedHome then .stowed
  else if e.wasStowed then .stowed
  else if s.settings.awningFull[a] ≤ awningPosition a s then .extended
  else .partially

/-! ### Drive-away (05 R87) -/

/-- The chassis part reads the last record, current or not. -/
def chassisMoving (s : State) : Bool :=
  match s.interlock.record with
  | some r => !r.brakeSet || decide (0 < r.speed)
  | none => false

def driveAwayHolds (s : State) : Bool := chassisMoving s && allChannels.any fun c => !isStowed c s

/-! ### Fault records -/

def faultOf (h : FaultHolder) (s : State) : FaultRec :=
  match h with
  | .channel (.jack j) => s.jacks[j].fault
  | .channel (.slide i) => s.slides[i].fault
  | .channel (.awning a) => s.awnings[a].fault
  | .pump => s.pumpFault

/-- 01 R14: the record is clear when its active kind is none. -/
def faulted (h : FaultHolder) (s : State) : Bool := (faultOf h s).kind.isSome

def anyJackFaulted (s : State) : Bool := allJacks.any fun j => faulted (.channel (.jack j)) s

/-! ### The session table (04 R54) -/

def sessionAt (k : Cover) (s : State) : Option Session := s.sessions.find? fun x => x.cover = k

def sessionOn (c : Channel) (s : State) : Option Session := s.sessions.find? fun x => x.cover.covers c

/-- The session over J1 to J6, if any (04 section 4.1). -/
def jacksSession (s : State) : Option Session := sessionAt .allJacks s

/-- 01 R10. -/
def ownerOf (c : Channel) (s : State) : Option Owner := (sessionOn c s).map (·.owner)

def Session.live (x : Session) : Bool := x.phase != .waiting

def jacksAllContact (s : State) : Bool := allJacks.all fun j => s.jacks[j].state = .contact

def hasRun (s : State) : Bool := s.program.run.isSome

/-- The kind behaves as hold-to-run (04 R55). -/
def Kind.holdToRun : Kind → Bool
  | .hold => true
  | .jog => true
  | .oneTouch => false

/-! ### Supply (06 R91, R95) -/

def budgetOf : SupplyState → Nat
  | .strong => 220
  | .battery => 160
  | .low => 80
  | .critical => 0

/-- The lower threshold of a state, none in Critical. -/
def lowerThreshold : SupplyState → Option Int
  | .strong => some 1320
  | .battery => some 1200
  | .low => some 1100
  | .critical => none

/-- The rise threshold into the state above, none in Strong. -/
def riseThreshold : SupplyState → Option Int
  | .strong => none
  | .battery => some 1340
  | .low => some 1220
  | .critical => some 1120

def stateBelow : SupplyState → SupplyState
  | .strong => .battery
  | .battery => .low
  | .low => .critical
  | .critical => .critical

def stateAbove : SupplyState → SupplyState
  | .strong => .strong
  | .battery => .strong
  | .low => .battery
  | .critical => .low

/-- The sum of the amperes of the BUDGET entries. -/
def heldIn (table : List Allotment) : Nat :=
  (table.filter fun a => a.order.isSome).foldl (fun acc a => acc + a.amps) 0

def heldSum (s : State) : Nat := heldIn s.supply.allotments

def budget (s : State) : Nat := budgetOf s.supply.state

def remainder (s : State) : Nat := budget s - heldSum s

def Holder.users : Holder → List Cover
  | .session _ => []
  | .pump users => users

def Holder.isPump : Holder → Bool
  | .session _ => false
  | .pump _ => true

/-- The sessions an entry stands for. -/
def Holder.sessions : Holder → List Cover
  | .session k => [k]
  | .pump users => users

def pumpAllotted (s : State) : Bool := s.supply.allotments.any fun a => a.holder.isPump

/-- 06 R98: the number of jack sessions in RUNNING or STOPPING, which are the users of the pump's allotment. -/
def pumpUsers (s : State) : Nat := (s.supply.allotments.flatMap fun a => a.holder.users).length

def pumpQueued (s : State) : Bool := s.supply.queue.any fun e => e.holder.isPump

/-- The place of an entry in the wait queue, 1 the head, 0 none (11 section 11.8). -/
def queuePlace (p : Holder → Bool) (s : State) : Nat :=
  match s.supply.queue.findIdx? fun e => p e.holder with
  | some n => n + 1
  | none => 0

/-! ### Permissions (11 R184) -/

inductive Permission where
  | moveJack | moveSlide | moveAwning | sequence | configure | chassis
deriving DecidableEq, Repr

def Permission.bit : Permission → Nat
  | .moveJack => 0 | .moveSlide => 1 | .moveAwning => 2 | .sequence => 3 | .configure => 4 | .chassis => 5

def permits (l : Link) (p : Permission) (s : State) : Bool := (s.settings.permissions[l]).getLsbD p.bit

def movePermission : Channel → Permission
  | .jack _ => .moveJack
  | .slide _ => .moveSlide
  | .awning _ => .moveAwning

/-- 11 R191. -/
def chassisAlone (l : Link) (s : State) : Bool := s.settings.permissions[l] = 0b100000

/-! ### Times -/

/-- 03 R46: the age of an input's last edge, held at 60 000 ms; it stands still while the inputs are off (log 23). -/
def edgeAge (p : Hall) (s : State) : Nat :=
  min Config.edgeAgeCap ((s.pulse.offSince.getD s.now) - s.pulse.inputs[p].lastEdgeAt)

/-- The time left of a session's run limit (04 R68). -/
def Session.timeLeft (x : Session) (now : Nat) : Nat :=
  match x.runFrom with
  | some t => x.runLeft - (now - t)
  | none => x.runLeft

/-- The first boundary of an output at or after now (03 R37, R38). -/
def nextBoundary (o : Output) (s : State) : Nat :=
  let b := s.drive[o].boundaryAt
  if s.now ≤ b then b else b + ((s.now - b + drivePeriod o - 1) / drivePeriod o) * drivePeriod o

/-! ### Output pins (03 R38) -/

/-- Whether an output's pin is high `t` µs after a boundary of its period: edge-aligned outputs go high at the
boundary; a centre-aligned output's high interval lies in the middle of its period. -/
def pinHigh (o : Output) (duty t : Nat) : Bool :=
  let period := drivePeriod o
  if o.val < 10 then
    -- high for duty/1000 of the period about its middle, compared in halves of thousandths
    (1000 - duty) * period ≤ 2000 * t && 2000 * t < (1000 + duty) * period
  else 1000 * t < duty * period

/-- How an excitation output is driven during a conversion (02 R22). -/
inductive Polarity where
  | normal | reversed
deriving DecidableEq, Repr

/-- A slot's excitation output at its conversion k, counted from 0, of the frame in progress (02 R22); none: not driven.
Only slots 0 to 13 have one; a disabled slot makes no conversions; while no frames run, in Sleep and before the settings
are loaded, none is driven (02 R35; log 26). -/
def excitation (slot : Slot) (k : Nat) (s : State) : Option Polarity :=
  let c := s.sampler.inForce[slot]
  if s.sampler.running ∧ c.enabled ∧ slot.val ≤ 13 ∧ k < c.conversions then
    some (if c.signs.getLsbD (3 - k % 4) then .reversed else .normal)
  else none

end Sys2Proof.Machine
end

