-- ==== Sys2Proof/WellFormed.lean ====
section
/-! DEFINITION. Which commands name something the part has. The operand types already shut out numbers the part
does not have; what is left is checked here. `Machine.exec` is total on ill-formed commands too. -/

namespace Sys2Proof

/-- Slots 2 to 7 and 15 keep an exceedance counter (02 R20, R29). -/
def hasExceedance (slot : Slot) : Bool := (2 ≤ slot.val && slot.val ≤ 7) || slot.val == 15

/-- Outputs O18 to O23 are the retract valves (03 R37). -/
def isRetractValve (o : Output) : Bool := 17 ≤ o.val

/-- A command names something the part has: an exceedance trip a slot with a counter (02 R29), a pull-in end a retract
valve (03 R44), a WRITE_SETTING a payload that a frame can carry (11 section 11.1). -/
def Instr.wellFormed : Instr → Bool
  | .exceedanceTrip slot => hasExceedance slot
  | .pullInEnd o => isRetractValve o
  | .writeSetting _ _ value => value.length + 2 ≤ Config.payloadMax
  | _ => true

end Sys2Proof
end

