-- ==== Sys2Proof/Machine/Memory.lean ====
section
/-! DEFINITION. The serial memory: its bytes by address, its two blocks with the CRC that ends each, and the values a
block's bytes stand for (12 R195). The manual gives no layout inside a block; the one here is the model's (log 1). -/

namespace Sys2Proof.Machine

/-! ### Bytes by address -/

/-- The byte at an address; an unlisted one is blank (log 2). -/
def readByte (a : Nat) : List Host.Cell → Byte
  | [] => Config.blankByte
  | (k, c) :: rest => if k = a then c else readByte a rest

/-- A byte is put before the entries of higher addresses; a blank byte is not listed. -/
def putByte (a : Nat) (b : Byte) (rest : List Host.Cell) : List Host.Cell :=
  if b = Config.blankByte then rest else (a, b) :: rest

def writeByte (a : Nat) (b : Byte) : List Host.Cell → List Host.Cell
  | [] => putByte a b []
  | (k, c) :: rest =>
    if a < k then putByte a b ((k, c) :: rest)
    else if k = a then putByte a b rest
    else (k, c) :: writeByte a b rest

/-- `n` bytes from an address on. -/
def readBytes (a : Nat) : Nat → List Host.Cell → List Byte
  | 0, _ => []
  | n + 1, m => readByte a m :: readBytes (a + 1) n m

def writeBytes (a : Nat) : List Byte → List Host.Cell → List Host.Cell
  | [], m => m
  | b :: bs, m => writeBytes (a + 1) bs (writeByte a b m)

/-- The canonical form: addresses strictly rising, within the memory, and no blank byte listed. -/
def Memory.wf (m : List Host.Cell) : Bool :=
  decide (m.Pairwise fun x y => x.1 < y.1)
    && m.all fun x => decide (x.1 < Config.memoryBytes) && !decide (x.2 = Config.blankByte)

/-! ### Blocks (12 R195) -/

/-- A block's first byte in the serial memory, and how many bytes it has. -/
def Block.place : Block → Nat × Nat
  | .settings => (0, 512)
  | .posture => (1024, 64)

/-- How many of a block's bytes come before its CRC. -/
def Block.room (b : Block) : Nat := b.place.2 - 2

/-- The bytes of a block. -/
def Block.bytes (b : Block) (m : List Host.Cell) : List Byte := readBytes b.place.1 b.place.2 m

/-- A block passes its CRC: its last two bytes are the CRC-16 of the rest by 11 R180. -/
def Block.passes (b : Block) (m : List Host.Cell) : Bool := b.bytes m = withCrc ((b.bytes m).take b.room)

/-- Values in a block, the room behind them filled with zeros (log 1). -/
def Block.filled (b : Block) (values : List Byte) : List Byte :=
  values ++ List.replicate (b.room - values.length) 0

/-- A block is written: its values, and the CRC of the rest at its end. -/
def Block.write (b : Block) (values : List Byte) (m : List Host.Cell) : List Host.Cell :=
  writeBytes b.place.1 (withCrc (b.filled values)) m

/-- Bytes that end in anything but their CRC; `flaw` says in what it differs. -/
def withoutCrc (body : List Byte) (flaw : Word) : List Byte :=
  body ++ bytesOf 2 (crc16 body ^^^ (if flaw = 0 then 1 else flaw)).toNat

/-- A block whose n-th write was cut short: its bytes are free, but for a CRC that fails (log 56). -/
def Block.cutShort (b : Block) (n : Nat) (m : List Host.Cell) : List Host.Cell :=
  writeBytes b.place.1
    (withoutCrc ((List.range b.room).map (Config.tornByte n)) (Config.tornCrc n)) m

/-! ### Codes of what a block holds -/

/-- The number that bytes spell, high byte first. -/
def natOfBytes (bs : List Byte) : Nat := bs.foldl (fun acc b => acc * 256 + b.toNat) 0

/-- Two's complement of 16 bits. -/
def asSigned (v : Nat) : Int := if v < 32768 then (v : Int) else (v : Int) - 65536

def JackState.code : JackState → Nat
  | .stowed => 0 | .extending => 1 | .retracting => 2 | .contact => 3 | .deployed => 4

def SlideState.code : SlideState → Nat
  | .unhomed => 0 | .stowed => 1 | .movingOut => 2 | .movingIn => 3 | .partially => 4 | .extended => 5

def AwningState.code : AwningState → Nat
  | .unhomed => 0 | .stowed => 1 | .extending => 2 | .retracting => 3 | .partially => 4 | .extended => 5

def jackStateOf (v : Nat) : JackState :=
  match v with
  | 0 => .stowed | 1 => .extending | 2 => .retracting | 3 => .contact | _ => .deployed

def slideStateOf (v : Nat) : SlideState :=
  match v with
  | 1 => .stowed | 2 => .movingOut | 3 => .movingIn | 4 => .partially | 5 => .extended | _ => .unhomed

def awningStateOf (v : Nat) : AwningState :=
  match v with
  | 1 => .stowed | 2 => .extending | 3 => .retracting | 4 => .partially | 5 => .extended | _ => .unhomed

def StepKind.code : StepKind → Nat
  | .touchdown => 0 | .level => 1 | .jacksUp => 2 | .slideOut => 3 | .slideIn => 4 | .awningIn => 5 | .awningOut => 6
  | .confirm => 7

def kindOfCode (v : Nat) : StepKind :=
  match v with
  | 0 => .touchdown | 1 => .level | 2 => .jacksUp | 3 => .slideOut | 4 => .slideIn | 5 => .awningIn | 6 => .awningOut
  | _ => .confirm

/-- A step index, or 0xFF for none. -/
def stepCode (k : Option StepIndex) : Nat :=
  match k with
  | some k => k.val
  | none => 255

def indexOf (v : Nat) : Option StepIndex := if h : v < 32 then some ⟨v, h⟩ else none

def stepFlags (r : StepRec) : Nat := 4 * boolBit r.suspendAfter + 2 * boolBit r.pairNext + boolBit r.skipIfDone

def conversionsOf : Fin 4 → Nat
  | 0 => 4
  | 1 => 8
  | 2 => 16
  | 3 => 32

/-- Which of the four numbers of conversions. -/
def conversionsCode (n : Nat) : Nat := if n = 4 then 0 else if n = 8 then 1 else if n = 16 then 2 else 3

/-- The number in `n` bytes of a block from its byte `first` on. -/
def fieldOf (first n : Nat) (bs : List Byte) : Nat := natOfBytes ((bs.drop first).take n)

/-! ### The posture block (12 R195; places log 1) -/

def SlideImage.put (x : SlideImage) : List Byte :=
  bytesOf 2 x.front ++ bytesOf 2 x.rear ++ bytesOf 1 x.state.code ++ bytesOf 1 (boolBit x.homed)

def AwningImage.put (x : AwningImage) : List Byte :=
  bytesOf 2 x.count ++ bytesOf 1 x.state.code ++ bytesOf 1 (boolBit x.homed)

def JackImage.put (x : JackImage) : List Byte := bytesOf 1 x.state.code ++ bytesOf 2 x.stroke

def PostureImage.put (x : PostureImage) : List Byte :=
  x.slides.toList.flatMap SlideImage.put ++ x.awnings.toList.flatMap AwningImage.put
    ++ x.jacks.toList.flatMap JackImage.put

def slideImageOf (bs : List Byte) : SlideImage :=
  ⟨fieldOf 0 2 bs, fieldOf 2 2 bs, slideStateOf (fieldOf 4 1 bs), decide (fieldOf 5 1 bs ≠ 0)⟩

def awningImageOf (bs : List Byte) : AwningImage :=
  ⟨fieldOf 0 2 bs, awningStateOf (fieldOf 2 1 bs), decide (fieldOf 3 1 bs ≠ 0)⟩

def jackImageOf (bs : List Byte) : JackImage := ⟨jackStateOf (fieldOf 0 1 bs), fieldOf 1 2 bs⟩

def postureOf (bs : List Byte) : PostureImage where
  slides := Vector.ofFn fun i => slideImageOf (bs.drop (6 * i.val))
  awnings := Vector.ofFn fun i => awningImageOf (bs.drop (24 + 4 * i.val))
  jacks := Vector.ofFn fun i => jackImageOf (bs.drop (32 + 3 * i.val))

/-! ### The settings block (12 R195; places log 1) -/

/-- What every slot record has: format, gain, offset and window. -/
def SlotSettings.put (c : SlotSettings) : List Byte :=
  bytesOf 1 (pack [(1, boolBit c.enabled), (2, conversionsCode c.conversions), (4, c.signs.toNat)])
    ++ bytesOf 2 c.gain ++ bytesOf 2 (signed 16 c.offset)
    ++ bytesOf 2 (signed 16 c.windowMin) ++ bytesOf 2 (signed 16 c.windowMax)

/-- What a slot with an exceedance counter has besides. -/
def SlotSettings.putCounter (c : SlotSettings) : List Byte :=
  bytesOf 2 (signed 16 c.threshold) ++ bytesOf 2 (signed 16 c.release) ++ bytesOf 1 c.tripCount

def StepRec.put (r : StepRec) : List Byte :=
  bytesOf 2 (pack [(3, r.kind.code), (3, stepFlags r), (4, (r.channel.map Channel.code).getD 0), (6, stepCode r.next)])

/-- The slots with an exceedance counter. -/
def counterSlots : List Slot := allSlots.filter hasExceedance

/-- Permissions, class currents, keep window, levelling: 47 bytes. -/
def Settings.putLevelling (x : Settings) : List Byte :=
  x.permissions.toList.flatMap (fun p => bytesOf 1 p.toNat)
    ++ (bytesOf 1 x.pumpAmps ++ (bytesOf 1 x.slideAmps ++ (bytesOf 1 x.awningAmps
    ++ (bytesOf 2 x.keepWindow ++ (bytesOf 1 x.tolerance ++ (bytesOf 1 (boolBit x.autoRelevel)
    ++ (x.jackX.toList.flatMap (fun n => bytesOf 2 (signed 16 n))
    ++ (x.jackY.toList.flatMap (fun n => bytesOf 2 (signed 16 n))
    ++ x.maxStroke.toList.flatMap (bytesOf 2)))))))))

/-- Full counts, clearance, wind, interlock settings: 25 bytes. -/
def Settings.putInterlock (x : Settings) : List Byte :=
  x.slideFull.toList.flatMap (bytesOf 2)
    ++ (x.awningFull.toList.flatMap (bytesOf 2) ++ (x.clearance.toList.flatMap (bytesOf 2)
    ++ (bytesOf 1 x.windTripCount
    ++ (x.support.toList.flatMap (fun b => bytesOf 1 (boolBit b))
    ++ (x.conflict.toList.flatMap (fun b => bytesOf 1 b.toNat)
    ++ x.autoRetract.toList.flatMap (fun b => bytesOf 1 (boolBit b)))))))

/-- Slots, program table and step pool: 247 bytes. -/
def Settings.putTables (x : Settings) : List Byte :=
  x.slots.toList.flatMap SlotSettings.put
    ++ (counterSlots.flatMap (fun slot => x.slots[slot].putCounter)
    ++ (x.programs.toList.flatMap (fun k => bytesOf 1 (stepCode k))
    ++ x.pool.toList.flatMap StepRec.put))

/-- 319 bytes. -/
def Settings.put (x : Settings) : List Byte := x.putLevelling ++ (x.putInterlock ++ x.putTables)

/-- A slot record from its common bytes and, if it has a counter, that one's bytes; without one, as by default. -/
def slotOf (bs : List Byte) (counter : Option (List Byte)) : SlotSettings where
  enabled := decide (fieldOf 0 1 bs / 64 % 2 ≠ 0)
  conversions := conversionsOf ⟨fieldOf 0 1 bs / 16 % 4, Nat.mod_lt _ (by decide)⟩
  signs := BitVec.ofNat 4 (fieldOf 0 1 bs)
  gain := fieldOf 1 2 bs
  offset := asSigned (fieldOf 3 2 bs)
  windowMin := asSigned (fieldOf 5 2 bs)
  windowMax := asSigned (fieldOf 7 2 bs)
  threshold := (counter.map fun c => asSigned (fieldOf 0 2 c)).getD 0
  release := (counter.map fun c => asSigned (fieldOf 2 2 c)).getD 0
  tripCount := (counter.map (fieldOf 4 1)).getD 1

def stepOf (bs : List Byte) : StepRec :=
  let v := fieldOf 0 2 bs
  { kind := kindOfCode (v / 8192 % 8)
    channel := channelOfCode (v / 64 % 16)
    suspendAfter := v.testBit 12, pairNext := v.testBit 11, skipIfDone := v.testBit 10
    next := indexOf (v % 64) }

/-- The bytes of a slot's counter, if it has one. -/
def counterBytes (slot : Slot) (bs : List Byte) : Option (List Byte) :=
  if hasExceedance slot then some (bs.drop (216 + 5 * counterSlots.idxOf slot)) else none

def settingsOf (bs : List Byte) : Settings where
  permissions := Vector.ofFn fun i => BitVec.ofNat 6 (fieldOf i.val 1 bs)
  pumpAmps := fieldOf 4 1 bs
  slideAmps := fieldOf 5 1 bs
  awningAmps := fieldOf 6 1 bs
  keepWindow := fieldOf 7 2 bs
  tolerance := fieldOf 9 1 bs
  autoRelevel := decide (fieldOf 10 1 bs ≠ 0)
  jackX := Vector.ofFn fun i => asSigned (fieldOf (11 + 2 * i.val) 2 bs)
  jackY := Vector.ofFn fun i => asSigned (fieldOf (23 + 2 * i.val) 2 bs)
  maxStroke := Vector.ofFn fun i => fieldOf (35 + 2 * i.val) 2 bs
  slideFull := Vector.ofFn fun i => fieldOf (47 + 2 * i.val) 2 bs
  awningFull := Vector.ofFn fun i => fieldOf (55 + 2 * i.val) 2 bs
  clearance := Vector.ofFn fun i => fieldOf (59 + 2 * i.val) 2 bs
  windTripCount := fieldOf 63 1 bs
  support := Vector.ofFn fun i => decide (fieldOf (64 + i.val) 1 bs ≠ 0)
  conflict := Vector.ofFn fun i => BitVec.ofNat 4 (fieldOf (68 + i.val) 1 bs)
  autoRetract := Vector.ofFn fun i => decide (fieldOf (70 + i.val) 1 bs ≠ 0)
  slots := Vector.ofFn fun i => slotOf (bs.drop (72 + 9 * i.val)) (counterBytes i bs)
  programs := Vector.ofFn fun i => indexOf (fieldOf (251 + i.val) 1 bs)
  pool := Vector.ofFn fun i => stepOf (bs.drop (255 + 2 * i.val))

/-! ### What a load finds and a write stores (12 R196, R201) -/

/-- The settings in the settings block, none if it fails its CRC. -/
def storedSettings (m : List Host.Cell) : Option Settings :=
  if Block.settings.passes m then some (settingsOf (Block.settings.bytes m)) else none

/-- The posture in the posture block, none if it fails its CRC. -/
def storedPosture (m : List Host.Cell) : Option PostureImage :=
  if Block.posture.passes m then some (postureOf (Block.posture.bytes m)) else none

/-- The block named by a write in progress. -/
def WriteImage.block : WriteImage → Block
  | .settings _ => .settings
  | .posture _ => .posture

/-- The bytes of a captured image. -/
def WriteImage.put : WriteImage → List Byte
  | .settings x => x.put
  | .posture x => x.put

end Sys2Proof.Machine
end

