-- ==== Sys2Proof/Machine/Ops.lean ====
section
/-! DEFINITION. The operations every block shares: the work list of an event, the Event Unit, drive-away, the setters of
the posture record, fault marks, and the memory write queue. -/

namespace Sys2Proof.Machine

/-! ### Work of the event in progress -/

/-- A change handed to another block at this same event (05 R84, 04 R67). -/
def pushUrgent (t : Task) (s : State) : State := { s with work.urgent := s.work.urgent ++ [t] }

/-- Work that follows once the ends of this event have been taken (04 R70). -/
def pushLater (t : Task) (s : State) : State := { s with work.later := s.work.later ++ [t] }

/-! ### Free choices -/

/-- The next choice the manual leaves open, and the state with the counter advanced (log 9). -/
def drawChoice (s : State) : Bool × State := (Config.freeChoice s.freeCount, { s with freeCount := s.freeCount + 1 })

/-- A choice that is drawn only where it is needed; otherwise `dflt`. -/
def drawIf (needed dflt : Bool) (s : State) : Bool × State := if needed then drawChoice s else (dflt, s)

/-! ### Event Unit (11 R188, R190) -/

/-- The attention line is asserted exactly when the two sets share a member (11 R190). -/
def EventBox.judge (b : EventBox) : EventBox := { b with line := (b.pending &&& b.enable) != 0 }

def EventBox.add (e : Event) (b : EventBox) : EventBox := EventBox.judge { b with pending := b.pending ||| e.mask }

/-- 11 R188: the event joins each link's pending set, and each line is judged again. -/
def postEvent (e : Event) (s : State) : State := { s with events := updAll s.events fun _ => EventBox.add e }

/-! ### Drive-away (05 R87, R88) -/

/-- The condition is evaluated again: the onset posts DRIVE_AWAY and asserts the alarm, the end releases it. -/
def judgeDriveAway (s : State) : State :=
  let holds := driveAwayHolds s
  if holds = s.interlock.driveAway then s
  else if holds then postEvent .driveAway { s with interlock.driveAway := true, interlock.alarm := true }
  else { s with interlock.driveAway := false, interlock.alarm := false }

/-! ### Setters of the posture record: a change of state is handed on (01 R4, 05 R84, R87) -/

/-- Drive-away is evaluated at the change of each jack, so also between two jacks that change in one frame (05 R87; log 51). -/
def setJackState (j : Jack) (st : JackState) (s : State) : State :=
  if s.jacks[j].state = st then s
  else { s with jacks := upd s.jacks j fun e => { e with state := st } }
    |> pushUrgent (.reevaluate .jacks)
    |> judgeDriveAway

/-- A support-flagged slide's change into or out of STOWED is handed to re-evaluation (05 R84, 08 R132). -/
def setSlideState (i : Slide) (st : SlideState) (s : State) : State :=
  let old := s.slides[i].state
  if old = st then s
  else
    let s1 := { s with slides := upd s.slides i fun e => { e with state := st } }
    let s2 := if s.settings.support[i] && (decide (old = .stowed) || decide (st = .stowed))
      then pushUrgent (.reevaluate .slides) s1 else s1
    judgeDriveAway s2

def setAwningState (a : Awning) (st : AwningState) (s : State) : State :=
  if s.awnings[a].state = st then s
  else { s with awnings := upd s.awnings a fun e => { e with state := st } } |> judgeDriveAway

/-- A jack takes its stopped state (01 R4). -/
def restJack (j : Jack) (s : State) : State := setJackState j (jackRest j s) s

/-- A channel takes its stopped state (01 R4, R6, R7); a slide's seating ends with its motion (08 R143). -/
def restChannel (c : Channel) (s : State) : State :=
  match c with
  | .jack j => restJack j s
  | .slide i =>
    let s1 := { s with slides := upd s.slides i fun e => { e with seating := .none } }
    setSlideState i (slideRest i s1) s1
  | .awning a => setAwningState a (awningRest a s) s

def restCover (k : Cover) (s : State) : State := k.channels.foldl (fun s c => restChannel c s) s

def setLastEnd (x : LastEnd) (c : Channel) (s : State) : State :=
  match c with
  | .jack j => { s with jacks := upd s.jacks j fun e => { e with lastEnd := some x } }
  | .slide i => { s with slides := upd s.slides i fun e => { e with lastEnd := some x } }
  | .awning a => { s with awnings := upd s.awnings a fun e => { e with lastEnd := some x } }

/-! ### Fault records (01 R14, R16, R17) -/

def setFault (h : FaultHolder) (r : FaultRec) (s : State) : State :=
  match h with
  | .channel (.jack j) => { s with jacks := upd s.jacks j fun e => { e with fault := r } }
  | .channel (.slide i) => { s with slides := upd s.slides i fun e => { e with fault := r } }
  | .channel (.awning a) => { s with awnings := upd s.awnings a fun e => { e with fault := r } }
  | .pump => { s with pumpFault := r }

/-- The table of 01 R14: the first kind stays, a later occurrence sets the further marker, all seen-marks clear. -/
def FaultRec.occur (k : FaultKind) (r : FaultRec) : FaultRec :=
  match r.kind with
  | none => { kind := some k, further := false }
  | some k0 => { kind := some k0, further := true }

/-- The record changes and FAULT is posted (01 R14); the session's end is 01 R15's. -/
def markFault (h : FaultHolder) (k : FaultKind) (s : State) : State :=
  s |> setFault h ((faultOf h s).occur k) |> postEvent .fault

/-! ### Level state (07 R106, R123) -/

/-- The level state changes. Entering or leaving HOLDING sets or clears the levelled flag, which is handed to
re-evaluation; entering clears the drift counter (07 R124), which keeps its count when HOLDING is left (log 49);
leaving clears the deferred relevel mark (07 R125). -/
def setLevelState (st : LevelState) (s : State) : State :=
  let was := levelled s
  let now : Bool := st = .holding
  let s1 := { s with level.state := st }
  if was = now then s1
  else if now then pushUrgent (.reevaluate .levelled) { s1 with level.drift := 0 }
  else pushUrgent (.reevaluate .levelled) { s1 with level.deferred := false }

/-! ### Device mode (12 R194) -/

/-- MODE is posted at the event of the change. -/
def changeMode (m : DeviceMode) (s : State) : State := postEvent .mode { s with control.mode := m }

/-! ### Memory write queue (12 R201) -/

def slideImage (i : Slide) (s : State) : SlideImage :=
  ⟨slideFront i s, slideRear i s, s.slides[i].state, s.slides[i].homed⟩

def awningImage (a : Awning) (s : State) : AwningImage := ⟨awningPosition a s, s.awnings[a].state, s.awnings[a].homed⟩

def jackImage (j : Jack) (s : State) : JackImage := ⟨s.jacks[j].state, jackStroke j s⟩

/-- The posture block as the present state gives it (12 R195). -/
def postureImage (s : State) : PostureImage where
  slides := #v[slideImage 0 s, slideImage 1 s, slideImage 2 s, slideImage 3 s]
  awnings := #v[awningImage 0 s, awningImage 1 s]
  jacks := #v[jackImage 0 s, jackImage 1 s, jackImage 2 s, jackImage 3 s, jackImage 4 s, jackImage 5 s]

/-- A write begins by capturing the block's image from the present state. -/
def beginWrite (b : Block) (s : State) : State :=
  match b with
  | .settings => { s with memory.writing := some (.settings s.settings) }
  | .posture => { s with memory.writing := some (.posture (postureImage s)) }

/-- The table of 12 R201. -/
def askStore (b : Block) (s : State) : State :=
  if s.memory.writing.isNone && s.memory.pendingWrites.isEmpty then beginWrite b s
  else if b ∈ s.memory.pendingWrites then s
  else { s with memory.pendingWrites := s.memory.pendingWrites ++ [b] }

/-- When a write ends, the oldest pending write begins. -/
def nextWrite (s : State) : State :=
  let s1 := { s with memory.writing := none }
  match s.memory.pendingWrites with
  | [] => s1
  | b :: rest => beginWrite b { s1 with memory.pendingWrites := rest }

/-- A write of the block is cut short: it fails its CRC from now on (12 R195). -/
def spoilBlock (b : Block) (s : State) : State :=
  { s with memory.bytes := b.cutShort s.freeCount s.memory.bytes, freeCount := s.freeCount + 1 }

/-! ### Sessions: changes of one record -/

def updSession (k : Cover) (f : Session → Session) (s : State) : State :=
  { s with sessions := s.sessions.map fun x => if x.cover = k then f x else x }

def removeSession (k : Cover) (s : State) : State :=
  { s with sessions := s.sessions.filter fun x => !decide (x.cover = k) }

/-- The run time stops counting; what is left is kept (04 R68). -/
def Session.stopRun (now : Nat) (x : Session) : Session := { x with runLeft := x.timeLeft now, runFrom := none }

/-- The run time starts, or counts on (04 R68). -/
def Session.countRun (now : Nat) (x : Session) : Session := { x with runFrom := some now }

/-- The limit applies afresh at its full length; it counts if the session is RUNNING (04 R62, R68). -/
def Session.setLimit (limit now : Nat) (x : Session) : Session :=
  { x with runLimit := limit, runLeft := limit, runFrom := if x.phase = .running then some now else none }

/-- The time of a keep window from now (04 R59). -/
def keepFrom (s : State) : Nat := s.now + ms s.settings.keepWindow

end Sys2Proof.Machine
end

