-- ==== Sys2Proof/Machine/Drive.lean ====
section
/-! DEFINITION. The Drive Generator: writes, force-to-zero, and what happens at a period boundary (03 R37 to R45), with
the reports it makes to the pulse inputs and the arbiter. -/

namespace Sys2Proof.Machine

def setOutput (o : Output) (f : DriveOutput → DriveOutput) (s : State) : State := { s with drive := upd s.drive o f }

def setHall (p : Hall) (f : HallInput → HallInput) (s : State) : State :=
  { s with pulse.inputs := upd s.pulse.inputs p f }

/-! ### Writes (03 R39, R41) -/

/-- A duty write sets the buffered duty; above 1000 is taken as 1000. In Sleep writes are not taken (03 R45). -/
def writeDuty (o : Output) (d : Nat) (s : State) : State :=
  if s.control.mode = .sleep then s else setOutput o (fun r => { r with buffered := some (min d Config.fullDuty) }) s

/-- A direction write to a motor output; it has no effect on a valve or the pump (03 R41). -/
def writeDir (o : Output) (d : Dir) (s : State) : State :=
  if s.control.mode = .sleep then s
  else if o.val < 10 then
    setOutput o (fun r => { r with pendingDir := if r.dir = some d then none else some d }) s
  else s

/-! ### Reports (03 R42, R48, R50) -/

/-- The session that covers an output's channel is told that the output reached zero. -/
def tellArbiter (o : Output) (s : State) : State :=
  match channelOfOutput o with
  | none => s
  | some c =>
    match sessionOn c s with
    | none => s
    | some x => pushUrgent (.zeroReached x.cover) s

/-- A zero-reached report: the input's coast window opens in the direction driven until now, its stall timing ends, and
the arbiter is told. `dir` is the direction driven. -/
def reportZero (o : Output) (dir : Option Dir) (s : State) : State :=
  let s1 := match hallOf o with
    | none => s
    | some p =>
      setHall p (fun h => { h with
        stallStart := none
        coast := match dir with
          | some d => some ⟨d, s.now + Config.coastTime⟩
          | none => h.coast }) s
  tellArbiter o s1

/-- Start and stall-start reports when a motor's applied duty goes from `old` to `new`: the coast window closes at a
start; stall timing starts on rising to 200 or more, with the stall reported mark clear (03 R50, 09 R153; log 46), and
ends on falling below. -/
def reportRise (o : Output) (old new : Nat) (s : State) : State :=
  match hallOf o with
  | none => s
  | some p =>
    setHall p (fun h => { h with
      coast := if old = 0 ∧ new ≠ 0 then none else h.coast
      stallStart := if new < Config.stallDuty then none
        else if old < Config.stallDuty then some s.now else h.stallStart
      stallReported := if old < Config.stallDuty ∧ Config.stallDuty ≤ new then false else h.stallReported }) s

/-! ### Force-to-zero (03 R40) -/

/-- The duty last written to a slide's motor becomes 0 at any force-to-zero of it (08 R137). -/
def forgetDuty (o : Output) (s : State) : State :=
  if h : o.val < 8 then
    { s with slides := upd s.slides ⟨o.val / 2, by omega⟩ fun e =>
        if o.val % 2 = 0 then { e with lastFront := 0 } else { e with lastRear := 0 } }
  else s

/-- One output is forced to zero at this event: pending direction kept, pull-in abandoned. -/
def forceOne (o : Output) (s : State) : State :=
  let r := s.drive[o]
  let s1 := s |> setOutput o (fun r => { r with applied := 0, buffered := none, pullInAt := none }) |> forgetDuty o
  if r.applied = 0 then s1 else reportZero o r.dir s1

/-- The named outputs fall together. -/
def forceZero (os : List Output) (s : State) : State := os.foldl (fun s o => forceOne o s) s

/-! ### Period boundary (03 R39, R41, R43, R44) -/

/-- The applied duty becomes `d`, with the reports this makes. -/
def applyDuty (o : Output) (d : Nat) (s : State) : State :=
  let r := s.drive[o]
  let s1 := setOutput o (fun r => { r with
    applied := d, lastDir := if d ≠ 0 ∧ r.dir.isSome then r.dir else r.lastDir }) s
  let s2 := reportRise o r.applied d s1
  if r.applied ≠ 0 ∧ d = 0 then reportZero o r.dir s2 else s2

def clearBuffer (o : Output) (s : State) : State := setOutput o (fun r => { r with buffered := none }) s

/-- The moving state follows the direction at the boundary that takes it, while a session drives the channel
(01 R6, R7; 09 R149). -/
def showDirection (c : Channel) (d : Dir) (s : State) : State :=
  match sessionOn c s with
  | none => s
  | some x =>
    if x.phase = .waiting then s
    else match c with
      | .slide i => setSlideState i (match d with | .outward => .movingOut | .inward => .movingIn) s
      | .awning a => setAwningState a (match d with | .outward => .extending | .inward => .retracting) s
      | .jack _ => s

/-- A reversal whose direction write only abandoned a change in progress (03 R41): no boundary will take a direction, so
the moving state follows at the event of the reversal (01 R6, R7; log 45). -/
def showAbandoned (c : Channel) (d : Dir) (s : State) : State :=
  if (outputsOf c).all fun o => s.drive[o].pendingDir.isNone then showDirection c d s else s

/-- The pending direction becomes the output's direction (03 R41). The moving state of a slide whose two outputs take it at
different boundaries follows the first of them (01 R6; log 66). -/
def takeDirection (o : Output) (d : Dir) (s : State) : State :=
  let s1 := setOutput o (fun r => { r with dir := some d, pendingDir := none }) s
  match channelOfOutput o with
  | none => s1
  | some c => showDirection c d s1

/-- The coast window of a motor output is open in a direction other than the output's (03 R39). -/
def coastAgainst (o : Output) (s : State) : Bool :=
  match hallOf o with
  | none => false
  | some p =>
    match s.pulse.inputs[p].coast with
    | none => false
    | some w => s.drive[o].dir != some w.dir

/-- A motor output at its boundary: the table of 03 R39 and the two cases of R41. -/
def motorBoundary (o : Output) (s : State) : State :=
  let r := s.drive[o]
  match r.pendingDir with
  | some d => if r.applied = 0 then takeDirection o d s else applyDuty o 0 s
  | none =>
    match r.buffered with
    | none => s
    | some b =>
      if r.dir.isNone then applyDuty o 0 s
      else if b ≠ 0 ∧ coastAgainst o s then applyDuty o 0 s
      else s |> clearBuffer o |> applyDuty o b

/-- The pump output: up by 2 toward the buffered duty, down at once (03 R43). -/
def pumpBoundary (s : State) : State :=
  let r := s.drive[pumpOutput]
  match r.buffered with
  | none => s
  | some b =>
    let d := if r.applied < b then min (r.applied + 2) b else b
    let s1 := if d = b then clearBuffer pumpOutput s else s
    applyDuty pumpOutput d s1

/-- Pull-in ends at the first boundary 150 ms or more after it began (03 R44). -/
def endPullIn (o : Output) (s : State) : State :=
  match s.drive[o].pullInAt with
  | none => s
  | some t =>
    if t + Config.pullInTime ≤ s.now then
      s |> setOutput o (fun r => { r with pullInAt := none }) |> applyDuty o Config.holdDuty
    else s

/-- A retract valve: a non-zero duty opens it with a pull-in, a zero duty closes it (03 R44). -/
def retractBoundary (o : Output) (s : State) : State :=
  let r := s.drive[o]
  match r.buffered with
  | none => endPullIn o s
  | some 0 => s |> setOutput o (fun r => { r with buffered := none, pullInAt := none }) |> applyDuty o 0
  | some _ =>
    if r.applied = 0 then
      s |> setOutput o (fun r => { r with buffered := none, pullInAt := some s.now }) |> applyDuty o Config.fullDuty
    else s |> clearBuffer o |> endPullIn o

/-- An extend valve takes its buffered duty (03 R39, R44). -/
def extendBoundary (o : Output) (s : State) : State :=
  match s.drive[o].buffered with
  | none => s
  | some b => s |> clearBuffer o |> applyDuty o b

/-- The clock reaches a time; it never goes back. -/
def reach (t : Nat) (s : State) : State := { s with now := max s.now t }

/-- The output's period position moves on to the boundary after this one. -/
def passBoundary (o : Output) (s : State) : State :=
  setOutput o (fun r => { r with boundaryAt := nextBoundary o s + drivePeriod o }) s

/-- What an output does at a boundary, by its role (03 R37). -/
def boundaryOf (o : Output) (s : State) : State :=
  if o.val < 10 then motorBoundary o s
  else if o.val = 10 then pumpBoundary s
  else if o.val < 17 then extendBoundary o s
  else retractBoundary o s

/-- The next boundary of an output comes. -/
def takeBoundary (o : Output) (s : State) : State :=
  s |> reach (nextBoundary o s) |> passBoundary o |> boundaryOf o

/-! ### Resets and Sleep (03 R45) -/

/-- Every motor direction neutral, no pending direction; `keepLast` keeps the last driven direction. -/
def neutralDrive (keepLast : Bool) (s : State) : State :=
  { s with
    drive := updAll s.drive fun _ r =>
      { r with dir := none, pendingDir := none, lastDir := if keepLast then r.lastDir else none } }

end Sys2Proof.Machine
end

