-- ==== Sys2Proof/Machine/Sessions.lean ====
section
/-! DEFINITION. How sessions end (04 R65 to R72), how their current is returned (06 R102, R103), what the end of a level
run leaves (07 R122), and fault occurrences (01 R14, R15). -/

namespace Sys2Proof.Machine

/-! ### Current (06 R102, R103) -/

/-- A holder without one session; none when nobody is left. -/
def Holder.without (k : Cover) : Holder → Option Holder
  | .session m => if m = k then none else some (.session m)
  | .pump users =>
    match users.filter fun m => !decide (m = k) with
    | [] => none
    | rest => some (.pump rest)

def Allotment.without (k : Cover) (a : Allotment) : Option Allotment :=
  (a.holder.without k).map fun h => { a with holder := h }

def QueueEntry.without (k : Cover) (e : QueueEntry) : Option QueueEntry :=
  (e.holder.without k).map fun h => { e with holder := h }

/-- The pump output is forced to zero when the last user leaves (03 R43, 06 R98). -/
def stopPumpIfIdle (had : Bool) (s : State) : State := if had && !pumpAllotted s then forceOne pumpOutput s else s

/-- A session's current is returned, or its place in the queue is given up (04 R70, 06 R102, R103). -/
def releaseCurrent (k : Cover) (s : State) : State :=
  let had := pumpAllotted s
  { s with
    supply.allotments := s.supply.allotments.filterMap (Allotment.without k)
    supply.queue := s.supply.queue.filterMap (QueueEntry.without k) }
  |> stopPumpIfIdle had

/-! ### End of a level run (07 R122, R127) -/

/-- The outcome a run takes from its end code (07 R122); DONE keeps the outcome as decided. -/
def runOutcome (code : EndCode) (decided : LevelOutcome) : LevelOutcome :=
  match code with
  | .done => decided
  | .fault => .fault
  | _ => .stopped

/-- The event of a run's end (07 R122): none at a touchdown session's DONE and at a reset. -/
def runEvent (op : Operation) (code : EndCode) (outcome : LevelOutcome) : Option Event :=
  match code, op with
  | .reset, _ => none
  | .done, .touchdown => none
  | .done, _ => if outcome = .levelled then some .levelDone else some .levelFailed
  | _, _ => some .levelFailed

def postAny (e : Option Event) (s : State) : State :=
  match e with
  | some e => postEvent e s
  | none => s

/-- What the end of a session does to the Level Controller. -/
def endLevelRun (op : Operation) (code : EndCode) (s : State) : State :=
  match op with
  | .move => s
  | .jacksUp => setLevelState .idle s
  | op =>
    let outcome := runOutcome code s.level.outcome
    let st := if code = .done ∧ outcome = .levelled then LevelState.holding else .idle
    { s with level.outcome := outcome, level.settleDue := none }
    |> setLevelState st
    |> postAny (runEvent op code outcome)

/-! ### The end of a session (04 R70) -/

def endTask (x : Session) (code : EndCode) (s : State) : State :=
  match x.origin with
  | .step k => pushLater (.stepEnded k code s.level.outcome) s
  | _ => s

/-- A posture store is asked if the table now holds no session (04 R70). -/
def storeIfEmpty (s : State) : State := if s.sessions.isEmpty then askStore .posture s else s

/-- The session over `k` ends at this event with a code and, for INTERLOCK, a reason (04 R70). -/
def endNow (k : Cover) (code : EndCode) (reason : Option Reason) (s : State) : State :=
  match sessionAt k s with
  | none => s
  | some x =>
    let s1 := s |> removeSession k |> releaseCurrent k |> restCover k
    let s2 := k.channels.foldl (fun s c => setLastEnd ⟨code, reason, x.owner, x.op⟩ c s) s1
    s2 |> endLevelRun x.op code |> postEvent .sessionEnd |> storeIfEmpty
      |> pushLater .examineHead |> endTask x code |> pushLater .relevel

/-- No output of the session has a non-zero applied duty. -/
def outputsAtZero (k : Cover) (s : State) : Bool := (outputsOfCover k).all fun o => s.drive[o].applied = 0

/-- The owning controller writes 0 to every output of a session (04 R67); for a slide this is also its last duty
written (08 R137). -/
def writeZeros (k : Cover) (s : State) : State :=
  (outputsOfCover k).foldl (fun s o => s |> writeDuty o 0 |> forgetDuty o) s

/-- A slide leaves ONE_SEATED when its session leaves RUNNING (08 R143). -/
def clearSeating (k : Cover) (s : State) : State :=
  match k with
  | .one (.slide i) => { s with slides := upd s.slides i fun e => { e with seating := .none } }
  | _ => s

/-- The settle timer does not outlive the RUNNING phase of a jack session (07 R109). -/
def clearSettle (k : Cover) (s : State) : State :=
  match k with
  | .allJacks => { s with level.settleDue := none }
  | _ => s

/-- A soft end: DONE, KEEP_LOST or TIMEOUT (04 R56, R67, R71). -/
def softEnd (k : Cover) (code : EndCode) (s : State) : State :=
  match sessionAt k s with
  | none => s
  | some x =>
    match x.phase with
    | .waiting => endNow k code none s
    | .stopping => s
    | .running =>
      let s1 := s
        |> updSession k (fun x => { x.stopRun s.now with phase := .stopping, pendingEnd := some code })
        |> clearSeating k |> clearSettle k |> writeZeros k
      if outputsAtZero k s1 then endNow k code none s1 else s1

/-- The code a forced end takes: in STOPPING, STOPPED and INTERLOCK leave the pending code as it stood (04 R71). -/
def forcedCode (x : Session) (code : EndCode) : EndCode :=
  if x.phase = .stopping ∧ (code = .stopped ∨ code = .interlock) then x.pendingEnd.getD code else code

/-- A forced end: STOPPED, INTERLOCK, FAULT or RESET (04 R56, R69, R71). Nothing is driven in WAITING. -/
def forceEnd (k : Cover) (code : EndCode) (reason : Option Reason) (s : State) : State :=
  match sessionAt k s with
  | none => s
  | some x =>
    let s1 := if x.phase = .waiting then s else forceZero (outputsOfCover k) s
    let c := forcedCode x code
    endNow k c (if c = .interlock then reason else none) s1

/-- The last zero-reached report of a STOPPING session ends it (04 R67). -/
def finishStopping (k : Cover) (s : State) : State :=
  match sessionAt k s with
  | none => s
  | some x =>
    if x.phase = .stopping ∧ outputsAtZero k s then endNow k (x.pendingEnd.getD .done) none s else s

/-- Every session of a list of channel sets ends by force (04 R66, R72). -/
def forceEndAll (ks : List Cover) (code : EndCode) (reason : Option Reason) (s : State) : State :=
  ks.foldl (fun s k => forceEnd k code reason s) s

/-! ### Fault occurrences (01 R14, R15) -/

/-- The channel sets whose sessions an occurrence ends: the one covering the channel, or for P every jack session. -/
def coversHit (h : FaultHolder) (s : State) : List Cover :=
  match h with
  | .channel c => ((sessionOn c s).map (·.cover)).toList
  | .pump => (s.sessions.filter fun x => x.cover.isJacks).map (·.cover)

/-- An occurrence: the record, FAULT, and the end of what it hits. -/
def occur (h : FaultHolder) (k : FaultKind) (s : State) : State :=
  let s1 := markFault h k s
  forceEndAll (coversHit h s1) .fault none s1

/-- One kind on several jacks in the order J1 to J6 (07 R111, R117, R119, R127). -/
def occurOnJacks (js : List Jack) (k : FaultKind) (s : State) : State :=
  js.foldl (fun s j => occur (.channel (.jack j)) k s) s

end Sys2Proof.Machine
end

