-- ==== Sys2Proof/Machine/Interlock.lean ====
section
/-! DEFINITION. The Interlock Unit: the checks of each motion (05 R76 to R83) and re-evaluation (05 R84 to R86). -/

namespace Sys2Proof.Machine

/-- What the checks read of a motion (05 R76). -/
structure Motion where
  cover : Cover
  op : Operation
  dir : Option Dir
  kind : Kind
  target : Option Nat
deriving DecidableEq, Repr

def Session.motion (x : Session) : Motion := ⟨x.cover, x.op, x.dir, x.kind, x.target⟩

/-- 05 R76: outward motion. -/
def Motion.outward (m : Motion) : Bool :=
  match m.op with
  | .level => true
  | .touchdown => true
  | .jacksUp => false
  | .move => m.dir = some .outward

def Motion.slideMoved (m : Motion) : Option Slide :=
  match m.cover with
  | .one (.slide i) => some i
  | _ => none

def Motion.awningMoved (m : Motion) : Option Awning :=
  match m.cover with
  | .one (.awning a) => some a
  | _ => none

/-- 05 R76: an awning RETRACT passes every check. -/
def Motion.awningRetract (m : Motion) : Bool := m.cover.isAwning && !m.outward

/-- The awning an EXTEND moves. -/
def Motion.awningExtend (m : Motion) : Option Awning := if m.outward then m.awningMoved else none

/-- A jack retraction: single-jack RETRACT or JACKS_UP (05 R80). -/
def Motion.jackRetract (m : Motion) : Bool := m.cover.isJacks && !m.outward

/-- 01 R18, 05 R83: what an active fault refuses. -/
def faultRefuses (m : Motion) (s : State) : Bool :=
  match m.cover with
  | .allJacks => faulted .pump s || (m.outward && anyJackFaulted s)
  | .one (.jack j) => faulted .pump s || (m.outward && faulted (.channel (.jack j)) s)
  | .one c => m.outward && faulted (.channel c) s

/-- 05 R83, check 5. -/
def unhomedRefuses (m : Motion) (s : State) : Bool :=
  match m.cover with
  | .one c => m.outward && m.kind != .jog && !homed c s
  | .allJacks => false

/-- 05 R79: every jack is CONTACT, or the levelled flag is set. -/
def supported (s : State) : Bool := jacksAllContact s || levelled s

/-- 05 R80: every support-flagged slide is STOWED. -/
def supportSlidesStowed (s : State) : Bool :=
  allSlides.all fun i => !s.settings.support[i] || decide (s.slides[i].state = .stowed)

/-- The slide stands in an awning's conflict set. -/
def inConflict (i : Slide) (a : Awning) (s : State) : Bool := s.settings.conflict[a].getLsbD i.val

/-- A target above the awning's clearance count, or none (05 R81, R82). -/
def beyondClearance (a : Awning) (target : Option Nat) (s : State) : Bool :=
  match target with
  | none => true
  | some t => s.settings.clearance[a] < t

/-- 05 R81: the awning bars the slides beneath it. -/
def awningBars (a : Awning) (s : State) : Bool :=
  !s.awnings[a].homed
  || decide (s.settings.clearance[a] < awningPosition a s)
  || (match sessionOn (.awning a) s with
      | some x => decide (x.dir = some .outward) && beyondClearance a x.target s
      | none => false)

/-- 05 R81, check 9. -/
def barredByAwning (i : Slide) (s : State) : Bool := allAwnings.any fun a => inConflict i a s && awningBars a s

/-- 05 R82, check 10. -/
def slideMovingUnder (a : Awning) (target : Option Nat) (s : State) : Bool :=
  beyondClearance a target s && allSlides.any fun i => inConflict i a s && (sessionOn (.slide i) s).isSome

/-- 07 R108: the unfiltered pitch or roll has a magnitude above the limit. -/
def tooSteep (s : State) : Bool :=
  decide (Config.steepLimit < s.sampler.slots[(0 : Slot)].lastValid.natAbs)
  || decide (Config.steepLimit < s.sampler.slots[(1 : Slot)].lastValid.natAbs)

/-- One check of 05 R77: its reason, whether a re-evaluation judges it too, and whether it fails. -/
structure Check where
  reason : Reason
  again : Bool
  fails : Bool
deriving DecidableEq, Repr

/-- The checks of 05 R77 in their order. Checks 3, 4, 5, 11 and 12 are not judged again (05 R84). -/
def checksOf (m : Motion) (s : State) : List Check :=
  let cond := chassisCondition s
  [⟨.travel, true, cond = .travel⟩,
   ⟨.chassisUnknown, true, m.outward && decide (cond = .unknown)⟩,
   ⟨.notParked, true, m.outward && decide (cond = .unparked)⟩,
   ⟨.configDefaulted, false, m.outward && s.control.settingsDefaulted⟩,
   ⟨.faulted, false, faultRefuses m s⟩,
   ⟨.unhomed, false, unhomedRefuses m s⟩,
   ⟨.windLockout, true, m.awningExtend.isSome && s.wind.lockoutDue.isSome⟩,
   ⟨.noSupport, true, match m.slideMoved with
      | some i => m.outward && s.settings.support[i] && !supported s
      | none => false⟩,
   ⟨.slidesOut, true, m.jackRetract && !supportSlidesStowed s⟩,
   ⟨.awningClear, true, match m.slideMoved with
      | some i => barredByAwning i s
      | none => false⟩,
   ⟨.slideMoving, true, match m.awningExtend with
      | some a => slideMovingUnder a m.target s
      | none => false⟩,
   ⟨.sensorInvalid, false, decide (m.op = .level) && !attitudeValid s⟩,
   ⟨.tooSteep, false, decide (m.op = .level) && tooSteep s⟩]

/-- The first check that fails, or none (05 R77). An awning RETRACT passes every check (05 R76). -/
def interlock (again : Bool) (m : Motion) (s : State) : Option Reason :=
  if m.awningRetract then none
  else ((checksOf m s).find? fun c => (!again || c.again) && c.fails).map (·.reason)

/-! ### Re-evaluation (05 R84 to R86) -/

/-- Whether a motion's checks read the changed input. -/
def reads (ch : Change) (m : Motion) (s : State) : Bool :=
  match ch with
  | .chassis => true
  | .settings => true
  | .jacks => m.slideMoved.isSome && m.outward
  | .levelled => m.slideMoved.isSome && m.outward
  | .slides => m.jackRetract
  | .awning a => match m.slideMoved with
    | some i => inConflict i a s
    | none => false
  | .lockout => m.awningExtend.isSome

/-- The reason for which a session fails at a re-evaluation, if it does. -/
def failsAgain (ch : Change) (x : Session) (s : State) : Option Reason :=
  if reads ch x.motion s then interlock true x.motion s else none

/-- Every session that reads the change is judged, and those that fail end at this one event (05 R84). All are judged
against the state at the change, so that of two whose failures depend on each other both end (log 58). -/
def reevaluate (ch : Change) (s : State) : State :=
  s.sessions.foldl (fun t x =>
    match failsAgain ch x s with
    | some r => forceEnd x.cover .interlock (some r) t
    | none => t) s

end Sys2Proof.Machine
end

