-- ==== Sys2Proof/Machine/SlideControl.lean ====
section
/-! DEFINITION. The Slide Controller (08): duties and trim, start, counted edges, skew limit, targets, stalls, seating. -/

namespace Sys2Proof.Machine

def updSlide (i : Slide) (f : SlideEntry → SlideEntry) (s : State) : State := { s with slides := upd s.slides i f }

def slideCover (i : Slide) : Cover := .one (.slide i)

/-- The session of a slide, if it is RUNNING. -/
def runningSlide (i : Slide) (s : State) : Option Session :=
  match sessionOn (.slide i) s with
  | some x => if x.phase = .running then some x else none
  | none => none

/-! ### Duties (08 R134 to R137) -/

/-- An IN target in the home zone is driven as no target (08 R139). -/
def drivenTarget (x : Session) : Option Nat :=
  match x.target with
  | some t => if x.dir = some .inward ∧ t ≤ Config.zoneWidth then none else some t
  | none => none

/-- The position lies within 400 counts of a target (08 R134). -/
def nearTarget (target : Option Nat) (pos : Nat) : Bool :=
  match target with
  | some t => decide (pos ≤ t + Config.zoneWidth) && decide (t ≤ pos + Config.zoneWidth)
  | none => false

/-- 08 R134, R135. A session that is or has been a JOG creeps for its whole life, also once it is reversed by a HOLD
request (log 60). -/
def slideBaseDuty (i : Slide) (x : Session) (s : State) : Nat :=
  let pos := slidePosition i s
  if x.jogged then Config.creepDuty
  else if x.creep then Config.creepDuty
  else if !s.slides[i].homed then Config.creepDuty
  else if pos ≤ Config.zoneWidth ∨ s.settings.slideFull[i] ≤ pos + Config.zoneWidth then Config.slideSlow
  else if nearTarget (drivenTarget x) pos then Config.slideSlow
  else Config.slideBase

/-- 08 R136: the duty of a leading motor at a skew magnitude. -/
def trimmedDuty (base skew : Nat) : Nat :=
  max Config.trimFloor (base - (skew - Config.skewDeadband) * Config.trimGain)

/-- 08 R136: the motor that has travelled further in the direction of motion. -/
def leadingMotor (d : Dir) (skew : Int) : Motor :=
  match d with
  | .outward => if 0 < skew then .front else .rear
  | .inward => if 0 < skew then .rear else .front

/-- 08 R136, R141: both motors' duties from the base duty, the skew and the seating state. -/
def motorDuty (m : Motor) (base : Nat) (d : Dir) (skew : Int) (seating : Seating) : Nat :=
  match seating with
  | .oneSeated seated _ => if m = seated then 0 else base
  | .none =>
    if skew.natAbs ≤ Config.skewDeadband then base
    else if leadingMotor d skew = m then trimmedDuty base skew.natAbs
    else base

def lastDuty (i : Slide) (m : Motor) (s : State) : Nat :=
  match m with
  | .front => s.slides[i].lastFront
  | .rear => s.slides[i].lastRear

/-- A slide motor's duty is written and remembered. -/
def writeMotor (i : Slide) (m : Motor) (d : Nat) (s : State) : State :=
  s |> writeDuty (motorOutput i m) d
    |> updSlide i fun e => match m with | .front => { e with lastFront := d } | .rear => { e with lastRear := d }

/-- A motor's computed duty is written if it differs from the duty last written, or always (`always`: at a start or a
reversal; log 38). -/
def driveMotor (i : Slide) (m : Motor) (x : Session) (always : Bool) (s : State) : State :=
  match x.dir with
  | none => s
  | some d =>
    let duty := motorDuty m (slideBaseDuty i x s) d (slideSkew i s) s.slides[i].seating
    if always || duty != lastDuty i m s then writeMotor i m duty s else s

/-- 08 R137: both duties of a RUNNING slide are computed and written. -/
def driveSlide (i : Slide) (always : Bool) (s : State) : State :=
  match runningSlide i s with
  | none => s
  | some x => s |> driveMotor i .front x always |> driveMotor i .rear x always

/-- The direction is written to both motor outputs (08 R133, 04 R62). -/
def directSlide (i : Slide) (d : Dir) (s : State) : State :=
  s |> writeDir (frontOutput i) d |> writeDir (rearOutput i) d |> updSlide i fun e => { e with lastDir := some d }

/-! ### Start (08 R133) -/

/-- A skew at or above the limit is taken out: both counts become the position (08 R133 step 1). -/
def recentre (i : Slide) (s : State) : State :=
  if Config.skewLimit ≤ (slideSkew i s).natAbs then
    let p := slidePosition i s
    s |> setHall (frontHall i) (fun h => { h with count := p }) |> setHall (rearHall i) (fun h => { h with count := p })
  else s

/-- The slide of a session that has just become RUNNING is started. -/
def startSlide (i : Slide) (d : Dir) (s : State) : State :=
  s |> recentre i
    |> updSlide i (fun e => { e with
        seating := .none, wasStowed := decide (e.state = .stowed), seatedHome := false, stalledOut := false })
    |> directSlide i d
    |> driveSlide i true
    |> setSlideState i (match d with | .outward => .movingOut | .inward => .movingIn)

/-! ### Counted edges (08 R132, R138, R139) -/

/-- 08 R138. -/
def skewTrip (i : Slide) (s : State) : State :=
  s |> forceZero [frontOutput i, rearOutput i] |> occur (.channel (.slide i)) .skew

/-- 08 R139: the target of a homed slide's session is reached at a position. A target that coast edges passed while the
session waited is reached at the first counted edge after the grant (log 50). -/
def targetReached (x : Session) (isHomed : Bool) (pos : Nat) : Bool :=
  match drivenTarget x with
  | none => false
  | some t =>
    isHomed && (match x.dir with
      | some .outward => decide (t ≤ pos)
      | some .inward => decide (pos ≤ t)
      | none => false)

/-- The edge is judged against the skew limit, then the target; then the duties are computed (08 R132). -/
def judgeSlideEdge (i : Slide) (s : State) : State :=
  match sessionOn (.slide i) s with
  | none => s
  | some x =>
    let skewed := decide (Config.skewLimit ≤ (slideSkew i s).natAbs)
    match x.phase with
    | .waiting => s
    | .stopping => if skewed then skewTrip i s else s
    | .running =>
      if skewed then skewTrip i s
      else if targetReached x s.slides[i].homed (slidePosition i s) then softEnd (slideCover i) .done s
      else driveSlide i false s

/-- A stopped, homed slide that is PARTIAL or EXTENDED has its state set again when an edge changes its position
(01 R6, 08 R132). A slide whose session is RUNNING or STOPPING is not stopped. -/
def rejudgeSlide (i : Slide) (s : State) : State :=
  let e := s.slides[i]
  if e.homed ∧ (e.state = .partially ∨ e.state = .extended) then setSlideState i (slideRest i s) s else s

/-- The multiple of the segment crossed between two positions one count apart, if any (08 R132; log 17). -/
def segmentCrossed (old new : Nat) : Option Nat :=
  let a := old / Config.segment
  let b := new / Config.segment
  if a = b then none else some (max a b * Config.segment)

/-! ### Stalls (08 R140 to R144) -/

/-- The first seating of a session (08 R141). -/
def seatFirst (i : Slide) (m : Motor) (s : State) : State :=
  s |> updSlide i (fun e => { e with seating := .oneSeated m (s.now + Config.seatTimeout) })
    |> writeMotor i m 0
    |> driveSlide i false

/-- The counts of a channel's inputs become 0 and their stray tallies too (01 R8). -/
def zeroInputs (c : Channel) (s : State) : State :=
  (hallsOf c).foldl (fun s p => setHall p (fun h => { h with count := 0, stray := 0 }) s) s

/-- The second seating: the slide is homed (08 R142). -/
def homeSlide (i : Slide) (s : State) : State :=
  s |> zeroInputs (.slide i)
    |> updSlide i (fun e => { e with homed := true, seating := .none, seatedHome := true })
    |> softEnd (slideCover i) .done

/-- A stall judged as seating of a motor. A report from the seated motor itself cannot come (08 R141). -/
def seatMotor (i : Slide) (m : Motor) (s : State) : State :=
  match s.slides[i].seating with
  | .none => seatFirst i m s
  | .oneSeated seated _ => if m = seated then s else homeSlide i s

/-- An OUT stall in the out zone of a homed slide: EXTENDED, DONE (08 R144). -/
def stallExtended (i : Slide) (s : State) : State :=
  s |> updSlide i (fun e => { e with stalledOut := true }) |> softEnd (slideCover i) .done

/-- A stall report of a slide's motor, taken only while the session is RUNNING (08 R140, R144). -/
def slideStall (i : Slide) (m : Motor) (s : State) : State :=
  match runningSlide i s with
  | none => s
  | some x =>
    let pos := slidePosition i s
    let isHomed := s.slides[i].homed
    match x.dir with
    | none => s
    | some .inward =>
      if !isHomed || decide (pos ≤ Config.zoneWidth) then seatMotor i m s
      else occur (.channel (.slide i)) .stall s
    | some .outward =>
      if !isHomed then softEnd (slideCover i) .done s
      else if s.settings.slideFull[i] ≤ pos + Config.zoneWidth then stallExtended i s
      else occur (.channel (.slide i)) .stall s

end Sys2Proof.Machine
end

