-- ==== Sys2Proof/Machine/AwningControl.lean ====
section
/-! DEFINITION. The Awning Controller (09 R148 to R154): start, ends of travel, stalls, homing; and unhoming by stray
edges for slides and awnings (01 R9). -/

namespace Sys2Proof.Machine

def updAwning (a : Awning) (f : AwningEntry → AwningEntry) (s : State) : State := { s with awnings := upd s.awnings a f }

def awningCover (a : Awning) : Cover := .one (.awning a)

def runningAwning (a : Awning) (s : State) : Option Session :=
  match sessionOn (.awning a) s with
  | some x => if x.phase = .running then some x else none
  | none => none

/-- 09 R149. -/
def awningDutyOf (a : Awning) (x : Session) (s : State) : Nat :=
  if x.kind = .jog then Config.creepDuty
  else if x.creep then Config.creepDuty
  else if !s.awnings[a].homed then Config.creepDuty
  else Config.awningDuty

/-- The direction and then the duty of a RUNNING awning session are written (09 R149). -/
def driveAwning (a : Awning) (s : State) : State :=
  match runningAwning a s with
  | none => s
  | some x =>
    match x.dir with
    | none => s
    | some d => s |> writeDir (awningOutput a) d |> writeDuty (awningOutput a) (awningDutyOf a x s)

/-- The awning of a session that has just become RUNNING is started (09 R149). -/
def startAwning (a : Awning) (d : Dir) (s : State) : State :=
  s |> updAwning a (fun e => { e with wasStowed := decide (e.state = .stowed), seatedHome := false })
    |> driveAwning a
    |> setAwningState a (match d with | .outward => .extending | .inward => .retracting)

/-- Where a RUNNING session ends by position: EXTEND at its target, or at the full count without one (09 R151);
RETRACT only at a target above the home zone (09 R152). An awning that is not homed has no end of travel. -/
def awningEnds (a : Awning) (x : Session) (s : State) : Bool :=
  let pos := awningPosition a s
  s.awnings[a].homed && (match x.dir with
    | some .outward => decide ((x.target.getD s.settings.awningFull[a]) ≤ pos)
    | some .inward =>
      match x.target with
      | some t => decide (Config.awningHome < t) && decide (pos ≤ t)
      | none => false
    | none => false)

/-- The edge of a RUNNING session is judged against the session's end (09 R150). -/
def judgeAwningEdge (a : Awning) (s : State) : State :=
  match runningAwning a s with
  | none => s
  | some x => if awningEnds a x s then softEnd (awningCover a) .done s else s

/-- A stopped, homed awning that is PARTIAL or EXTENDED has its state set again (01 R7). -/
def rejudgeAwning (a : Awning) (s : State) : State :=
  let e := s.awnings[a]
  if e.homed ∧ (e.state = .partially ∨ e.state = .extended) then setAwningState a (awningRest a s) s else s

/-- A retract stall taken as home (09 R153): homing is handed to re-evaluation (05 R84). -/
def homeAwning (a : Awning) (s : State) : State :=
  let was := s.awnings[a].homed
  let s1 := s |> zeroInputs (.awning a) |> updAwning a (fun e => { e with homed := true, seatedHome := true })
  let s2 := if was then s1 else pushUrgent (.reevaluate (.awning a)) s1
  softEnd (awningCover a) .done s2

/-- 09 R153: taken only while the session is RUNNING. -/
def awningStall (a : Awning) (s : State) : State :=
  match runningAwning a s with
  | none => s
  | some x =>
    let isHomed := s.awnings[a].homed
    match x.dir with
    | none => s
    | some .inward =>
      if !isHomed || decide (awningPosition a s ≤ Config.awningHome) then homeAwning a s
      else occur (.channel (.awning a)) .stall s
    | some .outward =>
      if isHomed then occur (.channel (.awning a)) .stall s else softEnd (awningCover a) .done s

/-! ### Unhoming (01 R9) -/

/-- Step 4 of 01 R9: a posture store only if no session exists on any channel. -/
def storeAfterUnhoming (s : State) : State := storeIfEmpty s

/-- An outward session of the channel that waits for current, or that is RUNNING with its outputs still at 0, ends
INTERLOCK with UNHOMED (01 R9, 04 R69, 05 R83; log 43). -/
def endUnhomed (c : Channel) (s : State) : State :=
  match sessionOn c s with
  | none => s
  | some x =>
    if x.phase ≠ .stopping ∧ x.dir = some .outward then forceEnd x.cover .interlock (some .unhomed) s else s

/-- The channel's homed flag is cleared, it becomes UNHOMED, POSTURE_LOST is posted, and a store may be asked. An inward
session runs on, and its channel shows UNHOMED until the next change of its state (log 65). -/
def unhome (c : Channel) (s : State) : State :=
  match c with
  | .jack _ => s
  | .slide i =>
    s |> updSlide i (fun e => { e with homed := false })
      |> setSlideState i .unhomed
      |> postEvent .postureLost |> storeAfterUnhoming |> endUnhomed c
  | .awning a =>
    s |> updAwning a (fun e => { e with homed := false })
      |> setAwningState a .unhomed
      |> pushUrgent (.reevaluate (.awning a))
      |> postEvent .postureLost |> storeAfterUnhoming |> endUnhomed c

end Sys2Proof.Machine
end

