-- ==== Sys2Proof/Machine/LevelControl.lean ====
section
/-! DEFINITION. The Level Controller (07): beginning a run, the stages, the lift computation, the frame's judgement of
jacks, drift, single-jack moves and jacks-up. -/

namespace Sys2Proof.Machine

/-- What one slot hands on at a frame completion (02 R34): the published value (none: the held mark), a change of the
tripped flag, and the third out-of-window value. -/
structure SlotNews where
  value : Option Int := none
  tripChanged : Bool := false
  limit : Bool := false
deriving DecidableEq, Repr

abbrev FrameNews := Vector SlotNews 16

def noNews : FrameNews := Vector.replicate 16 {}

/-! ### Valves -/

/-- A jack is started out at a duty: retract valve 0, extend valve the duty (07 R110, R117, R126). -/
def extendJack (duty : Nat) (j : Jack) (s : State) : State :=
  s |> writeDuty (retractValve j) 0 |> writeDuty (extendValve j) duty |> setJackState j .extending

/-- A jack is started in: extend valve 0, retract valve opened (07 R126, R127). The value is not otherwise used
(03 R44); the model writes 1000 (log 55). -/
def retractJack (j : Jack) (s : State) : State :=
  s |> writeDuty (extendValve j) 0 |> writeDuty (retractValve j) Config.fullDuty |> setJackState j .retracting

/-- An extending jack is stopped and takes its stopped state (01 R3, R4). -/
def stopExtend (j : Jack) (s : State) : State := s |> writeDuty (extendValve j) 0 |> restJack j

def stopRetract (j : Jack) (s : State) : State := s |> writeDuty (retractValve j) 0 |> restJack j

/-- The session over J1 to J6 is RUNNING. -/
def jacksRunning (s : State) : Bool :=
  match jacksSession s with
  | some x => x.phase = .running
  | none => false

/-- The stage limit is set afresh (04 R68). -/
def setStageLimit (limit : Nat) (s : State) : State := updSession .allJacks (Session.setLimit limit s.now) s

/-! ### Beginning a run (07 R107, R108, R123, R127) -/

def clearOutcome (s : State) : State :=
  { s with level.outcome := .none, level.passes := 0, level.residualPitch := 0, level.residualRoll := 0,
           level.clamped := false }

/-- What the creation of a jack session does, in RUNNING or WAITING: a run begins, and HOLDING is left. -/
def beginJackSession (op : Operation) (origin : Origin) (s : State) : State :=
  match op with
  | .move => if levelled s then setLevelState .idle s else s
  | .jacksUp => setLevelState .retracting s
  | .touchdown => s |> clearOutcome |> setLevelState .touchdown
  | .level =>
    let s1 := clearOutcome s
    if origin = .relevel then setLevelState .settle { s1 with level.passLimit := 1 }
    else setLevelState .touchdown { s1 with level.passLimit := 4 }

/-! ### Settle (07 R112) -/

/-- The settle timer starts at its full length; it does not run while the attitude is invalid. -/
def startSettle (s : State) : State :=
  { s with level.settleDue := if attitudeValid s then some (s.now + Config.settleTime) else none }

def enterSettle (s : State) : State := s |> setLevelState .settle |> setStageLimit Config.stageLimit |> startSettle

/-! ### Touchdown and re-contact (07 R110, R121) -/

/-- Each jack that is not in CONTACT and not yet extending is extended at the touchdown duty. -/
def touchJacks (s : State) : State :=
  allJacks.foldl (fun s j =>
    if s.jacks[j].state = .contact ∨ s.jacks[j].state = .extending then s
    else extendJack Config.touchdownDuty j s) s

/-- The stage is complete when all six jacks are in CONTACT (07 R110, R121). -/
def judgeContacts (s : State) : State :=
  if jacksRunning s && jacksAllContact s then
    match s.level.state with
    | .touchdown =>
      match jacksSession s with
      | some x => if x.op = .touchdown then softEnd .allJacks .done s else enterSettle s
      | none => s
    | .recontact => enterSettle { s with level.hanging := Vector.replicate 6 false }
    | _ => s
  else s

/-- RECONTACT is entered: marks of jacks in CONTACT clear, the others are extended (07 R121). -/
def enterRecontact (s : State) : State :=
  { s with level.hanging := updAll s.level.hanging fun j m => m && !decide (s.jacks[j].state = .contact) }
  |> setLevelState .recontact |> setStageLimit Config.stageLimit |> touchJacks |> judgeContacts

/-! ### The lift computation (07 R114 to R116) -/

/-- A quotient rounded to the nearest integer, halves away from zero (07 R114). -/
def roundHalfAway (n : Int) (d : Nat) : Int :=
  let q : Int := ((2 * n.natAbs + d) / (2 * d) : Nat)
  if n < 0 then -q else q

/-- z_i: the height of a jack's point, in 0.1 mm. -/
def heightTerm (x y ep er : Int) : Int := roundHalfAway ((x * ep + y * er) * 1745) 1000000

def correction (j : Jack) (ep er : Int) (s : State) : Int :=
  -heightTerm s.settings.jackX[j] s.settings.jackY[j] ep er

/-- The least of c_1 to c_6. -/
def leastCorrection (ep er : Int) (s : State) : Int :=
  allJacks.foldl (fun acc j => min acc (correction j ep er s)) (correction 0 ep er s)

/-- L_i. -/
def liftOf (j : Jack) (ep er : Int) (s : State) : Nat := (correction j ep er s - leastCorrection ep er s).toNat

/-- The target of a lift from a start stroke under a maximum stroke, and whether the pass is LIMITED (07 R115). -/
def liftTarget (start maxStroke lift : Nat) : Nat × Bool :=
  if maxStroke ≤ start then (start, decide (Config.stopLead < lift))
  else if maxStroke < start + lift then (maxStroke, true)
  else (start + lift, false)

/-- s_i, T_i and ℓ_i; a jack moves when ℓ_i is above the stop lead (07 R115). The duty is set by `setDuties`. -/
def planJack (j : Jack) (ep er : Int) (s : State) : JackPlan :=
  let start := jackStroke j s
  let target := (liftTarget start s.settings.maxStroke[j] (liftOf j ep er s)).1
  let planned := target - start
  { start, target, planned, duty := 0, moving := decide (Config.stopLead < planned), held := false }

def planLimited (ep er : Int) (s : State) : Bool :=
  allJacks.any fun j => (liftTarget (jackStroke j s) s.settings.maxStroke[j] (liftOf j ep er s)).2

def greatestPlanned (p : Vector JackPlan 6) : Nat :=
  allJacks.foldl (fun acc j => if p[j].moving then max acc p[j].planned else acc) 0

/-- d_i = 250 + 750 × ℓ_i / ℓ_max, truncated (07 R116). -/
def liftDuty (planned greatest : Nat) : Nat := Config.liftMinimum + 750 * planned / greatest

def setDuties (p : Vector JackPlan 6) : Vector JackPlan 6 :=
  let g := greatestPlanned p
  updAll p fun _ x => if x.moving then { x with duty := liftDuty x.planned g } else x

def liftPlan (ep er : Int) (s : State) : Vector JackPlan 6 :=
  setDuties #v[planJack 0 ep er s, planJack 1 ep er s, planJack 2 ep er s,
               planJack 3 ep er s, planJack 4 ep er s, planJack 5 ep er s]

def anyMoving (p : Vector JackPlan 6) : Bool := allJacks.any fun j => p[j].moving

/-! ### Decisions (07 R112, R113, R122) -/

/-- LIMIT if the clamped mark is set, otherwise NOT_REACHED. -/
def shortOutcome (s : State) : LevelOutcome := if s.level.clamped then .limit else .notReached

/-- The run is decided: its outcome is written and its session ends DONE (07 R122). -/
def decideRun (o : LevelOutcome) (s : State) : State :=
  { s with level.outcome := o, level.settleDue := none } |> softEnd .allJacks .done

/-- Each moving jack is driven at its lift duty, or held at 0 (07 R109, R117). -/
def driveLift (s : State) : State :=
  allJacks.foldl (fun s j =>
    let p := s.level.plan[j]
    if p.moving then extendJack (if p.held then 0 else p.duty) j s else s) s

/-- LIFT is entered with the tilt-guard baseline and cleared hanging counts (07 R117, R119, R120). -/
def enterLift (plan : Vector JackPlan 6) (ep er : Int) (s : State) : State :=
  { s with
    level.plan := plan
    level.passes := s.level.passes + 1
    level.basePitch := ep.natAbs
    level.baseRoll := er.natAbs
    level.guardPitch := s.level.pitchTarget
    level.guardRoll := s.level.rollTarget
    level.hangCount := Vector.replicate 6 0
    level.hanging := Vector.replicate 6 false }
  |> setLevelState .lift |> setStageLimit Config.stageLimit |> driveLift

/-- The lift computation at one settle measurement; a pass in which no jack moves ends the run (07 R115). -/
def computeLift (ep er : Int) (s : State) : State :=
  let plan := liftPlan ep er s
  let s1 := { s with level.clamped := s.level.clamped || planLimited ep er s }
  if anyMoving plan then enterLift plan ep er s1 else decideRun (shortOutcome s1) s1

/-- The settle measurement and its decision (07 R112, R113). -/
def measure (s : State) : State :=
  let ep := s.sampler.pitch.value - s.level.pitchTarget
  let er := s.sampler.roll.value - s.level.rollTarget
  let s1 := { s with level.residualPitch := ep, level.residualRoll := er, level.settleDue := none }
  if tooSteep s1 then decideRun .tooSteep s1
  else if !jacksAllContact s1 then enterRecontact s1
  else if ep.natAbs ≤ s.settings.tolerance ∧ er.natAbs ≤ s.settings.tolerance then decideRun .levelled s1
  else if s1.level.passes = s1.level.passLimit then decideRun (shortOutcome s1) s1
  else computeLift ep er s1

/-! ### A grant of a jack session (07 R109, R126, R127) -/

/-- Each jack not yet STOWED has its retract valve opened; with none to move the session ends DONE (07 R127). -/
def startJacksUp (s : State) : State :=
  let s1 := allJacks.foldl (fun s j => if s.jacks[j].state = .stowed then s else retractJack j s) s
  if allJacks.all fun j => !decide (s1.jacks[j].state = .retracting) then softEnd .allJacks .done s1 else s1

/-- The session over J1 to J6 has just become RUNNING, by the stage it stands in. -/
def startLevel (s : State) : State :=
  match s.level.state with
  | .touchdown => s |> touchJacks |> judgeContacts
  | .recontact => s |> touchJacks |> judgeContacts
  | .settle => startSettle s
  | .lift => driveLift s
  | .retracting => startJacksUp s
  | .idle => s
  | .holding => s

/-- The duty of a single-jack extend (07 R126). -/
def singleDuty (k : Kind) : Nat := if k = .jog then Config.liftMinimum else Config.touchdownDuty

/-- A single jack is driven in a direction: at a start, or at the event of a reversal (07 R126, 04 R62). -/
def driveSingle (j : Jack) (d : Dir) (k : Kind) (s : State) : State :=
  match d with
  | .outward => extendJack (singleDuty k) j s
  | .inward => retractJack j s

/-- A stroke at which a single-jack session stops and ends DONE (07 R126). -/
def strokeEnds (j : Jack) (x : Session) (s : State) (v : Int) : Bool :=
  match x.dir with
  | some .outward => decide (((x.target.getD s.settings.maxStroke[j] : Nat) : Int) ≤ v + Config.stopLead)
  | some .inward =>
    match x.target with
    | some t => decide (v ≤ (t : Int) + Config.stopLead)
    | none => decide (v ≤ Config.stowedStroke)
  | none => false

/-- The RUNNING single-jack session of a jack stands at its end by the stroke published last (95, SINGLE_JACK_STOP, within
MOVE and PERIOD_BOUNDARY; log 68). -/
def singleAtEnd (j : Jack) (s : State) : Bool :=
  match sessionAt (.one (.jack j)) s with
  | some x => decide (x.phase = .running) && strokeEnds j x s (jackStroke j s)
  | none => false

/-- A session whose stroke published last stands at its end ends DONE, at a retarget or a reversal too (log 68). -/
def judgeSingle (j : Jack) (s : State) : State :=
  if singleAtEnd j s then softEnd (.one (.jack j)) .done s else s

/-- A single-jack session has just become RUNNING: it is driven, or, standing at its end already, ends DONE without having
been driven (07 R126; log 68). -/
def startSingle (j : Jack) (d : Dir) (k : Kind) (s : State) : State :=
  if singleAtEnd j s then softEnd (.one (.jack j)) .done s else driveSingle j d k s

/-! ### A frame completion at the Level Controller (02 R34) -/

/-- Stopped jacks take their state again at a change of contact or a new stroke (01 R4). -/
def restStopped (news : FrameNews) (s : State) : State :=
  allJacks.foldl (fun s j =>
    if news[pressureSlot j].tripChanged || news[strokeSlot j].value.isSome then
      match s.jacks[j].state with
      | .extending => s
      | .retracting => s
      | _ => restJack j s
    else s) s

/-- The published stroke of a jack satisfies a test. -/
def strokeIs (news : FrameNews) (j : Jack) (p : Int → Bool) : Bool :=
  match news[strokeSlot j].value with
  | some v => p v
  | none => false

/-- The stage in which contact stops jacks is in progress (07 R110, R121). -/
def touching (s : State) : Bool :=
  jacksRunning s && (decide (s.level.state = .touchdown) || decide (s.level.state = .recontact))

/-- An extending jack in touchdown or re-contact: contact stops it, maximum stroke without contact faults it
(07 R110, R111). When a contact that has just tripped and the stroke limit fall in one frame, either may be taken
first (log 9). -/
def judgeTouch (news : FrameNews) (j : Jack) (s : State) : State :=
  if touching s && decide (s.jacks[j].state = .extending) then
    let atLimit := strokeIs news j fun v => decide ((s.settings.maxStroke[j] : Int) ≤ v)
    if contact j s then
      let (limitFirst, s1) := drawIf (atLimit && news[pressureSlot j].tripChanged) false s
      if limitFirst then occur (.channel (.jack j)) .strokeLimit s1 else stopExtend j s1
    else if atLimit then occur (.channel (.jack j)) .strokeLimit s
    else s
  else s

/-- The jacks of one frame, J1 first; once one has ended the session no other is judged (log 59). -/
def frameTouch (news : FrameNews) (s : State) : State :=
  let s1 := allJacks.foldl (fun s j => judgeTouch news j s) s
  if touching s1 then s1 |> touchJacks |> judgeContacts else s1

/-- A hanging count of `n` steps on; at 5 the jack is marked (07 R120). -/
def setHangCount (j : Jack) (n : Nat) (s : State) : State :=
  let s1 := { s with level.hangCount := upd s.level.hangCount j fun _ => n }
  if n = Config.hangingTrip then { s1 with level.hanging := upd s1.level.hanging j fun _ => true } else s1

/-- 07 R120: published pressures below the release level count; a held frame does not. -/
def frameHanging (news : FrameNews) (s : State) : State :=
  allJacks.foldl (fun s j =>
    match news[pressureSlot j].value with
    | none => s
    | some v =>
      if v < s.sampler.inForce[pressureSlot j].release then
        setHangCount j (min Config.hangingTrip (s.level.hangCount[j] + 1)) s
      else setHangCount j 0 s) s

/-- A moving jack that publishes a stroke at or above its target less the stop lead is stopped (07 R117). -/
def stopAtTarget (news : FrameNews) (j : Jack) (s : State) : State :=
  let p := s.level.plan[j]
  if p.moving && strokeIs news j (fun v => decide ((p.target : Int) ≤ v + Config.stopLead)) then
    { s with level.plan := upd s.level.plan j fun p => { p with moving := false, held := false } } |> stopExtend j
  else s

/-- progress_i (07 R118). -/
def progress (j : Jack) (s : State) : Int :=
  let p := s.level.plan[j]
  min 1000 ((((jackStroke j s : Int) - p.start) * 1000).tdiv p.planned)

/-- The least progress among the jacks still moving, held jacks included. -/
def referenceProgress (s : State) : Option Int :=
  allJacks.foldl (fun acc j =>
    if s.level.plan[j].moving then
      match acc with
      | none => some (progress j s)
      | some r => some (min r (progress j s))
    else acc) none

/-- A moving jack is held or released against the reference (07 R118). -/
def syncJack (reference : Int) (j : Jack) (s : State) : State :=
  let p := s.level.plan[j]
  let q := progress j s
  if p.moving && !p.held && decide (reference + Config.syncHold < q) then
    { s with level.plan := upd s.level.plan j fun p => { p with held := true } } |> writeDuty (extendValve j) 0
  else if p.moving && p.held && decide (q ≤ reference + Config.syncRelease) then
    { s with level.plan := upd s.level.plan j fun p => { p with held := false } } |> writeDuty (extendValve j) p.duty
  else s

def syncLift (s : State) : State :=
  match referenceProgress s with
  | none => s
  | some r => allJacks.foldl (fun s j => syncJack r j s) s

def lifting (s : State) : Bool := jacksRunning s && decide (s.level.state = .lift)

/-- Targets, completion and sync lift of one frame (07 R117, R118). -/
def frameStops (news : FrameNews) (s : State) : State :=
  if lifting s then
    let s1 := allJacks.foldl (fun s j => stopAtTarget news j s) s
    if anyMoving s1.level.plan then syncLift s1 else enterRecontact s1
  else s

/-- The errors have grown past the baseline plus the margin (07 R119). -/
def guardTripped (news : FrameNews) (s : State) : Bool :=
  news[(0 : Slot)].value.isSome && news[(1 : Slot)].value.isSome
  && (decide (s.level.basePitch + Config.guardMargin < (s.sampler.pitch.value - s.level.guardPitch).natAbs)
      || decide (s.level.baseRoll + Config.guardMargin < (s.sampler.roll.value - s.level.guardRoll).natAbs))

/-- TILT_GUARD on each jack still moving (07 R119). -/
def tripGuard (s : State) : State :=
  if lifting s then occurOnJacks (allJacks.filter fun j => s.level.plan[j].moving) .tiltGuard s else s

/-- One frame in LIFT. Which of the guard and the target stops is taken first is not stated (log 9). -/
def frameLift (news : FrameNews) (s : State) : State :=
  let s1 := frameHanging news s
  let trips := guardTripped news s1
  let (guardFirst, s2) := drawIf trips false s1
  if !trips then frameStops news s2
  else if guardFirst then s2 |> tripGuard |> frameStops news
  else s2 |> frameStops news |> tripGuard

/-- Retracting jacks that publish a stroke at or below 50 are stopped; when all are, the session ends (07 R127). -/
def frameRetract (news : FrameNews) (s : State) : State :=
  let s1 := allJacks.foldl (fun s j =>
    if s.jacks[j].state = .retracting && strokeIs news j (fun v => decide (v ≤ Config.stowedStroke)) then stopRetract j s
    else s) s
  if allJacks.all fun j => !decide (s1.jacks[j].state = .retracting) then softEnd .allJacks .done s1 else s1

/-- A frame publishes the stroke at which a single-jack session ends DONE (07 R126). -/
def singleReached (news : FrameNews) (j : Jack) (x : Session) (s : State) : Bool :=
  strokeIs news j (strokeEnds j x s)

/-- A RUNNING single-jack session whose end is published ends DONE, softly: its valves are written 0, and the jack keeps its
moving state until the session's end (04 R56, 07 R126; log 67). -/
def frameSingles (news : FrameNews) (s : State) : State :=
  allJacks.foldl (fun s j =>
    match sessionAt (.one (.jack j)) s with
    | some x =>
      if x.phase = .running ∧ singleReached news j x s then softEnd (.one (.jack j)) .done s else s
    | none => s) s

/-! ### Drift (07 R124, R125) -/

/-- LEVEL_DRIFT is posted, the counter clears, and with auto-relevel on a relevel is judged. -/
def tripDrift (s : State) : State :=
  let s1 := postEvent .levelDrift { s with level.drift := 0 }
  if s.settings.autoRelevel then pushLater .relevel { s1 with level.deferred := true } else s1

def frameDrift (news : FrameNews) (s : State) : State :=
  if s.level.state = .holding ∧ news[(0 : Slot)].value.isSome ∧ news[(1 : Slot)].value.isSome then
    let ep := s.sampler.pitch.value - s.level.pitchTarget
    let er := s.sampler.roll.value - s.level.rollTarget
    if Config.driftBand < ep.natAbs ∨ Config.driftBand < er.natAbs then
      if Config.driftTrip ≤ s.level.drift + 1 then tripDrift s else { s with level.drift := s.level.drift + 1 }
    else { s with level.drift := 0 }
  else s

/-- The settle timer restarts when the attitude becomes valid and stops while it is not (07 R112); a lost attitude
clears the drift counter (07 R124). `was`: attitude valid before this frame. -/
def followAttitude (was : Bool) (s : State) : State :=
  let now := attitudeValid s
  let s1 := if s.level.state = .settle ∧ jacksRunning s then
      if !now then { s with level.settleDue := none }
      else if !was then startSettle s else s
    else s
  if was && !now then { s1 with level.drift := 0 } else s1

/-- All that one frame completion does at the Level Controller. In LIFT nothing, the tilt guard included, is judged
while the session waits (log 48). -/
def levelFrame (was : Bool) (news : FrameNews) (s : State) : State :=
  let s1 := s |> followAttitude was |> restStopped news
  let s2 := match s1.level.state with
    | .touchdown => frameTouch news s1
    | .recontact => frameTouch news s1
    | .lift => if lifting s1 then frameLift news s1 else s1
    | .retracting => if jacksRunning s1 then frameRetract news s1 else s1
    | _ => s1
  s2 |> frameSingles news |> frameDrift news

/-- The expiry of a stage limit (07 R111, R112, R117, R121, R127). -/
def stageExpired (s : State) : State :=
  match s.level.state with
  | .touchdown => occurOnJacks (allJacks.filter fun j => !decide (s.jacks[j].state = .contact)) .runTimeout s
  | .recontact => occurOnJacks (allJacks.filter fun j => !decide (s.jacks[j].state = .contact)) .runTimeout s
  | .settle => decideRun (shortOutcome s) s
  | .lift => occurOnJacks (allJacks.filter fun j => s.level.plan[j].moving) .runTimeout s
  | .retracting => occurOnJacks (allJacks.filter fun j => s.jacks[j].state = .retracting) .runTimeout s
  | .idle => s
  | .holding => s

end Sys2Proof.Machine
end

