-- ==== Sys2Proof/Machine/Supply.lean ====
section
/-! DEFINITION. The Supply Budget Unit (06): allotments, the wait queue, grants, the supply state's dwell and its falls. -/

namespace Sys2Proof.Machine

/-- The unit's answer to a request (06 R97). -/
inductive Grant where
  | granted | queued | refused
deriving DecidableEq, Repr

/-! ### Requests (06 R96 to R99) -/

/-- A BUDGET entry with the next grant order joins the table (06 R95). -/
def addBudget (h : Holder) (amps : Nat) (s : State) : State :=
  { s with
    supply.allotments := s.supply.allotments ++ [⟨h, amps, some s.supply.nextOrder⟩]
    supply.nextOrder := s.supply.nextOrder + 1 }

/-- A RESERVE entry joins the table (06 R99). -/
def addReserve (k : Cover) (s : State) : State :=
  { s with supply.allotments := s.supply.allotments ++ [⟨.session k, Config.retractAmps, none⟩] }

/-- An entry joins the tail of the wait queue (06 R100). -/
def joinTail (h : Holder) (amps : Nat) (s : State) : State :=
  { s with supply.queue := s.supply.queue ++ [⟨h, amps, s.now⟩] }

/-- The pump ramp starts when the user count leaves 0 (03 R43, 06 R98). -/
def startPump (s : State) : State := writeDuty pumpOutput Config.fullDuty s

/-- The grant case of 06 R97. -/
def fitsNow (amps : Nat) (s : State) : Bool := decide (amps ≤ remainder s) && s.supply.queue.isEmpty

/-- A request for a BUDGET allotment (06 R97). -/
def askBudget (h : Holder) (amps : Nat) (s : State) : Grant × State :=
  if budget s < amps then (.refused, s)
  else if fitsNow amps s then (.granted, addBudget h amps s)
  else if s.supply.queue.length < Config.queueMax then (.queued, joinTail h amps s)
  else (.refused, s)

def Holder.join (k : Cover) : Holder → Holder
  | .session m => .session m
  | .pump users => .pump (users ++ [k])

/-- A session shares the pump's allotment (06 R98). -/
def sharePump (k : Cover) (s : State) : State :=
  { s with supply.allotments := s.supply.allotments.map fun a => { a with holder := a.holder.join k } }

/-- A session joins the pump's queue entry (06 R98). -/
def joinPump (k : Cover) (s : State) : State :=
  { s with supply.queue := s.supply.queue.map fun e => { e with holder := e.holder.join k } }

/-- A jack session's request (06 R98). -/
def askPump (k : Cover) (s : State) : Grant × State :=
  if pumpAllotted s then (.granted, sharePump k s)
  else if pumpQueued s then (.queued, joinPump k s)
  else
    let (g, s1) := askBudget (.pump [k]) s.settings.pumpAmps s
    (g, if g = .granted then startPump s1 else s1)

/-- The class of current a session draws and the unit's answer (06 R96). -/
def askSupply (k : Cover) (d : Option Dir) (s : State) : Grant × State :=
  if k.isJacks then askPump k s
  else if k.isSlide then askBudget (.session k) s.settings.slideAmps s
  else if d = some .inward then (.granted, addReserve k s)
  else askBudget (.session k) s.settings.awningAmps s

/-! ### A session becomes RUNNING (04 R56, R59, R68) -/

/-- The owning controller starts the channels of a session that has just become RUNNING. -/
def startController (x : Session) (s : State) : State :=
  match x.cover, x.dir with
  | .allJacks, _ => startLevel s
  | .one (.jack j), some d => startSingle j d x.kind s
  | .one (.slide i), some d => startSlide i d s
  | .one (.awning a), some d => startAwning a d s
  | .one _, none => s

/-- The phase becomes RUNNING, the run time counts, and the controller starts the channels. -/
def runSession (k : Cover) (s : State) : State :=
  match sessionAt k s with
  | none => s
  | some x =>
    s |> updSession k (fun x => { x.countRun s.now with phase := .running }) |> startController x

/-- A waiting session is granted; a program step's grant is handed to the Sequencer (06 R101), which judges a pair only once
every head that fits has been granted (log 69). -/
def grantSession (k : Cover) (s : State) : State :=
  match sessionAt k s with
  | none => s
  | some x =>
    match x.origin with
    | .step i => s |> pushLater (.stepGranted i) |> runSession k
    | _ => runSession k s

/-! ### The queue head (06 R101) -/

/-- The head entry is granted. -/
def grantHead (e : QueueEntry) (rest : List QueueEntry) (s : State) : State :=
  let s1 := addBudget e.holder e.amps { s with supply.queue := rest }
  let s2 := if e.holder.isPump then startPump s1 else s1
  e.holder.sessions.foldl (fun s k => grantSession k s) s2

/-- Heads are granted while they fit, at most `n` of them. -/
def examineHeads : Nat → State → State
  | 0, s => s
  | n + 1, s =>
    match s.supply.queue with
    | [] => s
    | e :: rest => if e.amps ≤ remainder s then examineHeads n (grantHead e rest s) else s

/-- The re-examination of the queue head. -/
def examineHead (s : State) : State := examineHeads s.supply.queue.length s

/-! ### A fall (06 R104) -/

/-- The later granted of a BUDGET entry and the best so far; a RESERVE entry has no grant order. -/
def newer (best : Option Allotment) (a : Allotment) : Option Allotment :=
  match a.order, best with
  | none, _ => best
  | some _, none => some a
  | some n, some b => if b.order.getD 0 < n then some a else some b

/-- The BUDGET entry with the highest grant order. -/
def newestBudget (table : List Allotment) : Option Allotment := table.foldl newer none

/-- A RUNNING session goes to WAITING with its outputs forced to zero (04 R56, 07 R109, 08 R143). -/
def preempt (k : Cover) (s : State) : State :=
  s |> updSession k (fun x => { x.stopRun s.now with phase := .waiting })
    |> forceZero (outputsOfCover k) |> clearSeating k |> clearSettle k |> restCover k

def phaseOf (k : Cover) (s : State) : Option Phase := (sessionAt k s).map (·.phase)

/-- A session whose current is taken back: RUNNING is pre-empted; STOPPING ends with its pending code. -/
def takeBackSession (k : Cover) (s : State) : State :=
  match sessionAt k s with
  | none => s
  | some x =>
    match x.phase with
    | .running => preempt k s
    | .stopping => s |> forceZero (outputsOfCover k) |> endNow k (x.pendingEnd.getD .done) none
    | .waiting => s

/-- The users of an entry that are RUNNING, as the entry that returns to the queue; none if nobody is. -/
def waitingHolder (h : Holder) (s : State) : Option Holder :=
  match h with
  | .session k => if phaseOf k s = some .running then some (.session k) else none
  | .pump users =>
    match users.filter fun k => decide (phaseOf k s = some .running) with
    | [] => none
    | rest => some (.pump rest)

/-- One entry is taken back: it leaves the table, its sessions leave RUNNING, the pump falls. -/
def takeBack (a : Allotment) (s : State) : State :=
  let s1 := { s with supply.allotments := s.supply.allotments.filter fun b => !decide (b = a) }
  let s2 := a.holder.sessions.foldl (fun s k => takeBackSession k s) s1
  if a.holder.isPump then forceOne pumpOutput s2 else s2

/-- Stage 1: while the held sum exceeds the budget, the newest entry is taken back; `back` gathers the entries that
return to the queue, oldest grant first. -/
def takeBackAll : Nat → List QueueEntry → State → List QueueEntry × State
  | 0, back, s => (back, s)
  | n + 1, back, s =>
    if heldSum s ≤ budget s then (back, s)
    else match newestBudget s.supply.allotments with
      | none => (back, s)
      | some a =>
        let back1 := match waitingHolder a.holder s with
          | some h => ⟨h, a.amps, s.now⟩ :: back
          | none => back
        takeBackAll n back1 (takeBack a s)

/-- The sessions an entry stands for end NO_SUPPLY (06 R102). -/
def endEntry (e : QueueEntry) (s : State) : State :=
  e.holder.sessions.foldl (fun s k => endNow k .noSupply none s) s

/-- Stage 3: entries whose amount exceeds the budget are removed. -/
def removeTooLarge (s : State) : State :=
  let b := budget s
  let gone := s.supply.queue.filter fun e => decide (b < e.amps)
  gone.foldl (fun s e => endEntry e s)
    { s with supply.queue := s.supply.queue.filter fun e => !decide (b < e.amps) }

/-- Stage 4: the tail is removed while the queue holds more than 8 entries. -/
def trimQueue (s : State) : State :=
  let gone := (s.supply.queue.drop Config.queueMax).reverse
  gone.foldl (fun s e => endEntry e s) { s with supply.queue := s.supply.queue.take Config.queueMax }

/-- The four stages of a fall, then the head. -/
def handleFall (s : State) : State :=
  let (back, s1) := takeBackAll s.supply.allotments.length [] s
  { s1 with supply.queue := back ++ s1.supply.queue }
  |> removeTooLarge |> trimQueue |> pushLater .examineHead

/-! ### The dwell (06 R92 to R94) -/

/-- The supply state changes: both counts clear, SUPPLY_STATE is posted, the change is handled (06 R92, R94). -/
def moveSupply (next : SupplyState) (fall : Bool) (s : State) : State :=
  let s1 := postEvent .supplyState
    { s with supply.state := next, supply.fallCount := 0, supply.riseCount := 0 }
  if fall then handleFall s1 else pushLater .examineHead s1

/-- The counts after a value (06 R92). -/
def dwellCounts (st : SupplyState) (v : Int) (fall rise : Nat) : Nat × Nat :=
  let below := match lowerThreshold st with | some t => decide (v < t) | none => false
  let above := match riseThreshold st with | some t => decide (t ≤ v) | none => false
  if below then (fall + 1, 0) else if above then (0, rise + 1) else (0, 0)

/-- Slot 14 hands on a value (06 R92). -/
def judgeSupply (v : Int) (s : State) : State :=
  let (fall, rise) := dwellCounts s.supply.state v s.supply.fallCount s.supply.riseCount
  if Config.dwell ≤ fall then moveSupply (stateBelow s.supply.state) true s
  else if Config.dwell ≤ rise then moveSupply (stateAbove s.supply.state) false s
  else { s with supply.fallCount := fall, supply.riseCount := rise }

/-- Slot 14 at a frame completion: a value, or the held mark; a cleared supply-valid flag clears both counts
(06 R93). -/
def frameSupply (value : Option Int) (s : State) : State :=
  match value with
  | some v => judgeSupply v s
  | none => if supplyValid s then s else { s with supply.fallCount := 0, supply.riseCount := 0 }

/-! ### The wait limit (06 R102) -/

/-- The queue entry a name stands for. -/
def entryOf (e : WaitEntry) (s : State) : Option QueueEntry :=
  s.supply.queue.find? fun q =>
    match e, q.holder with
    | .pump, .pump _ => true
    | .session c, .session k => k.covers c
    | _, _ => false

/-- The entry leaves the queue and every session it stands for ends NO_SUPPLY. -/
def expireEntry (q : QueueEntry) (s : State) : State :=
  endEntry q { s with supply.queue := s.supply.queue.filter fun e => !decide (e = q) }

end Sys2Proof.Machine
end

