-- ==== Sys2Proof/Machine/Arbiter.lean ====
section
/-! DEFINITION. The Motion Arbiter (04): judging a request, creating, retargeting and reversing sessions, KEEP, STOP,
internal requests and the run limit. -/

namespace Sys2Proof.Machine

/-! ### What a request asks (04 R54, R55) -/

/-- A request for a session, before it is judged from step 4 of R57 on. -/
structure Ask where
  cover : Cover
  op : Operation
  owner : Owner
  origin : Origin
  kind : Kind
  dir : Option Dir
  target : Option Word
deriving DecidableEq, Repr

/-- The kind taken for a MOVE (04 R55). -/
def kindTaken (c : Channel) : KindAsked → Kind
  | .jog => .jog
  | .hold => .hold
  | .oneTouch => if c.isAwning then .oneTouch else .hold
  | .default => if c.isAwning then .oneTouch else .hold

def statusReply (st : Status) : Reply := { status := st }

def refusal (r : Reason) : Reply := { status := .refused, reason := some r }

/-! ### Targets (04 R55, R58) -/

/-- The greatest target of a channel. -/
def channelEnd (c : Channel) (s : State) : Nat :=
  match c with
  | .jack j => s.settings.maxStroke[j]
  | .slide i => s.settings.slideFull[i]
  | .awning a => s.settings.awningFull[a]

/-- A target that the motion keeps: none for a JOG, and none on a slide or awning that is not homed. -/
def keptTarget (c : Channel) (k : Kind) (t : Option Word) (s : State) : Option Word :=
  if k = .jog ∨ !homed c s then none else t

/-- The target limited to the channel's range. -/
def clampTarget (c : Channel) (t : Option Word) (s : State) : Option Nat :=
  t.map fun w => min w.toNat (channelEnd c s)

/-- The target was outside the channel's range. -/
def targetClamped (c : Channel) (t : Option Word) (s : State) : Bool :=
  match t with
  | some w => decide (channelEnd c s < w.toNat)
  | none => false

/-- The target lies at the present position, or behind it in the direction. -/
def targetBehind (c : Channel) (d : Dir) (t : Option Nat) (s : State) : Bool :=
  match t, d with
  | some t, .outward => decide (t ≤ position c s)
  | some t, .inward => decide (position c s ≤ t)
  | none, _ => false

/-- OK, or CLAMPED if the target was clamped (04 R57). -/
def doneStatus (clamped : Bool) : Status := if clamped then .clamped else .ok

/-! ### What an active fault does to an accepted motion (01 R18; log 15) -/

/-- The kind and the creep limit of a motion, by R18. -/
def underFault (a : Ask) (s : State) : Kind × Bool :=
  match a.cover with
  | .allJacks => if a.op = .jacksUp ∧ anyJackFaulted s then (.hold, false) else (a.kind, false)
  | .one c =>
    if a.dir = some .inward ∧ faulted (.channel c) s then
      match c with
      | .jack _ => (.hold, false)
      | .slide _ => (.hold, true)
      | .awning _ => (if a.kind = .oneTouch ∧ a.owner ≠ .internal then .hold else a.kind, true)
    else (a.kind, false)

/-! ### Creation (04 R59) -/

/-- The run limit of a session (04 R68). -/
def runLimitOf (k : Cover) (op : Operation) : Nat :=
  match k with
  | .allJacks => if op = .jacksUp then Config.jacksUpLimit else Config.stageLimit
  | .one (.jack _) => Config.jackRunLimit
  | .one (.slide _) => Config.slideRunLimit
  | .one (.awning _) => Config.awningRunLimit

def keepDueOf (k : Kind) (s : State) : Option Nat := if k.holdToRun then some (keepFrom s) else none

/-- The record of an accepted request; a granted one is made RUNNING by `runSession`. -/
def newSession (a : Ask) (target : Option Nat) (s : State) : Session where
  cover := a.cover
  op := a.op
  owner := a.owner
  origin := a.origin
  kind := (underFault a s).1
  dir := a.dir
  target := target
  creep := (underFault a s).2
  jogged := decide ((underFault a s).1 = .jog)
  phase := .waiting
  keepDue := keepDueOf (underFault a s).1 s
  runLimit := runLimitOf a.cover a.op
  runLeft := runLimitOf a.cover a.op
  runFrom := none
  pendingEnd := none

/-- An awning's session, or its change, is handed to re-evaluation (05 R84). -/
def tellAwningSession (k : Cover) (s : State) : State :=
  match k with
  | .one (.awning a) => pushUrgent (.reevaluate (.awning a)) s
  | _ => s

/-- The record joins the table. -/
def createSession (a : Ask) (target : Option Nat) (s : State) : State :=
  let s1 := { s with sessions := s.sessions ++ [newSession a target s] }
  let s2 := if a.cover.isJacks then beginJackSession a.op a.origin s1 else s1
  if a.dir = some .outward then tellAwningSession a.cover s2 else s2

/-- The target judged at step 4: the target the session holds, whether it was clamped, whether it is refused. -/
def judgedTarget (a : Ask) (s : State) : Option Nat × Bool × Bool :=
  match a.cover, a.dir with
  | .one c, some d =>
    let kept := keptTarget c a.kind a.target s
    let t := clampTarget c kept s
    (t, targetClamped c kept s, targetBehind c d t s)
  | _, _ => (none, false, false)

/-- Step 6 of R57: the supply's answer creates the session or refuses. `grantOnly`: by the grant case alone
(10 R176). -/
def supplyStep (a : Ask) (target : Option Nat) (clamped grantOnly : Bool) (s : State) : Reply × State :=
  if grantOnly && !fitsNow s.settings.slideAmps s then (statusReply .noSupply, s)
  else
    let (g, s1) := askSupply a.cover a.dir s
    match g with
    | .refused => (statusReply .noSupply, s)
    | .queued => (statusReply .queued, createSession a target s1)
    | .granted => (statusReply (doneStatus clamped), s1 |> createSession a target |> runSession a.cover)

/-- Steps 4 to 6 of R57, the channels being free. -/
def judgeAsk (a : Ask) (grantOnly : Bool) (s : State) : Reply × State :=
  let (target, clamped, bad) := judgedTarget a s
  if bad then (statusReply .badArg, s)
  else match interlock false ⟨a.cover, a.op, a.dir, a.kind, target⟩ s with
    | some r => (refusal r, s)
    | none => supplyStep a target clamped grantOnly s

/-- Some channel of a set is covered by a session (04 R60). -/
def anyCovered (k : Cover) (s : State) : Bool := s.sessions.any fun x => x.cover.meets k

/-- A request judged from step 3, which never changes a session that exists: LEVEL, JACKS_UP, program steps and
internal causes (04 R57, R60, 10 R167). -/
def askFresh (a : Ask) (grantOnly : Bool) (s : State) : Reply × State :=
  if anyCovered a.cover s then (statusReply .busy, s) else judgeAsk a grantOnly s

/-- An internal request: whatever refuses it drops it (04 R60, 05 R89, 07 R125). -/
def askInternal (a : Ask) (s : State) : State := (askFresh a false s).2

/-- An INTERNAL retract of an awning (05 R89, 09 R158). -/
def internalRetract (a : Awning) (origin : Origin) (s : State) : State :=
  askInternal ⟨awningCover a, .move, .internal, origin, .oneTouch, some .inward, none⟩ s

/-! ### Retarget (04 R61) -/

/-- The controller of a RUNNING session learns of its new target: a slide's duties are computed again (08 R137), and a
jack is judged against it (07 R126; log 68). -/
def tellRetarget (x : Session) (s : State) : State :=
  match x.cover with
  | .one (.jack j) => judgeSingle j s
  | .one (.slide i) => driveSlide i false s
  | .one (.awning a) => if x.dir = some .outward then pushUrgent (.reevaluate (.awning a)) s else s
  | _ => s

/-- The owner's MOVE in the session's own direction. The kind asked for is ignored; the session's own kind decides
whether the target is kept (log 16). -/
def retarget (c : Channel) (d : Dir) (x : Session) (t : Option Word) (s : State) : Reply × State :=
  let kept := keptTarget c x.kind t s
  let target := clampTarget c kept s
  if targetBehind c d target s then (statusReply .badArg, s)
  else
    (statusReply (doneStatus (targetClamped c kept s)),
     s |> updSession x.cover (fun x => { x with target := target, keepDue := keepDueOf x.kind s })
       |> tellRetarget x)

/-! ### Reversal (04 R62, R63) -/

/-- The fields a reversal changes. A session that has once been a JOG stays marked so (08 R135; log 60). -/
def Session.reverse (d : Dir) (k : Kind) (target : Option Nat) (s : State) (x : Session) : Session :=
  let x1 := { x with
    dir := some d, kind := k, target := target, jogged := x.jogged || decide (k = .jog), keepDue := keepDueOf k s }
  if x.phase = .running then x1.setLimit x.runLimit s.now else x1

/-- The controller of a RUNNING channel carries the reversal out (04 R62, 08 R143, 09 R149). -/
def driveReversal (c : Channel) (d : Dir) (k : Kind) (x : Session) (s : State) : State :=
  if x.phase = .running then
    match c with
    | .jack j => s |> driveSingle j d k |> judgeSingle j
    | .slide i => s |> clearSeating x.cover |> directSlide i d |> driveSlide i true |> showAbandoned c d
    | .awning a => s |> driveAwning a |> showAbandoned c d
  else s

/-- An awning from EXTEND to RETRACT: the budget allotment or the queue place is given up for the reserve
(04 R63). -/
def reverseIn (a : Awning) (k : Kind) (target : Option Nat) (x : Session) (s : State) : State :=
  let s1 := s |> releaseCurrent x.cover |> addReserve x.cover |> updSession x.cover (Session.reverse .inward k target s)
  let s2 := if x.phase = .waiting then runSession x.cover s1 else driveReversal (.awning a) .inward k x s1
  s2 |> tellAwningSession x.cover |> pushLater .examineHead

/-- An awning from RETRACT to EXTEND, its current fitting (04 R63). -/
def reverseOut (a : Awning) (k : Kind) (target : Option Nat) (x : Session) (s : State) : State :=
  s |> releaseCurrent x.cover
    |> addBudget (.session x.cover) s.settings.awningAmps
    |> updSession x.cover (Session.reverse .outward k target s)
    |> driveReversal (.awning a) .outward k x
    |> tellAwningSession x.cover

/-- The reversal is taken, or refused for want of current (04 R62, R63). -/
def takeReversal (c : Channel) (d : Dir) (k : Kind) (target : Option Nat) (clamped : Bool) (x : Session) (s : State) :
    Reply × State :=
  let done := statusReply (doneStatus clamped)
  match c, d with
  | .awning a, .inward => (done, reverseIn a k target x s)
  | .awning a, .outward =>
    if fitsNow s.settings.awningAmps s then (done, reverseOut a k target x s) else (statusReply .noSupply, s)
  | c, d => (done, s |> updSession x.cover (Session.reverse d k target s) |> driveReversal c d k x)

/-- The owner's MOVE in the opposite direction: creep limit, interlock, target, current, in that order. -/
def reverse (c : Channel) (d : Dir) (k : Kind) (x : Session) (t : Option Word) (s : State) : Reply × State :=
  if x.creep then (refusal .faulted, s)
  else
    let kept := keptTarget c k t s
    let target := clampTarget c kept s
    match interlock false ⟨x.cover, .move, some d, k, target⟩ s with
    | some r => (refusal r, s)
    | none =>
      if targetBehind c d target s then (statusReply .badArg, s)
      else takeReversal c d k target (targetClamped c kept s) x s

/-! ### Link requests (04 R57, R60) -/

/-- In SERVICE only the Service owner is heard (04 R57, 12 R197). -/
def serviceBars (l : Link) (s : State) : Bool :=
  decide (s.control.mode = .service) && decide (s.control.serviceOwner ≠ some l)

/-- A MOVE for a channel that a session covers (04 R60). -/
def moveCovered (l : Link) (c : Channel) (d : Dir) (k : KindAsked) (t : Option Word) (x : Session) (s : State) :
    Reply × State :=
  if x.owner ≠ .link l ∨ x.origin ≠ .link ∨ x.phase = .stopping ∨ x.cover = .allJacks then (statusReply .busy, s)
  else if x.dir = some d then retarget c d x t s
  else reverse c d (kindTaken c k) x t s

/-- MOVE (04 R57). -/
def judgeMove (l : Link) (c : Channel) (d : Dir) (k : KindAsked) (t : Option Word) (s : State) : Reply × State :=
  if !permits l (movePermission c) s then (statusReply .notPermitted, s)
  else if serviceBars l s || (decide (k = .jog) && decide (s.control.mode = .ready)) then (statusReply .badState, s)
  else match sessionOn c s with
    | some x => moveCovered l c d k t x s
    | none => judgeAsk ⟨.one c, .move, .link l, .link, kindTaken c k, some d, t⟩ false s

/-- LEVEL and JACKS_UP (04 R57, R60). -/
def judgeJacks (l : Link) (op : Operation) (d : Option Dir) (s : State) : Reply × State :=
  if !permits l .moveJack s then (statusReply .notPermitted, s)
  else if serviceBars l s then (statusReply .badState, s)
  else askFresh ⟨.allJacks, op, .link l, .link, .oneTouch, d, none⟩ false s

/-! ### KEEP (04 R64) -/

/-- A session that a link's KEEP refreshes. -/
def Session.keptBy (l : Link) (x : Session) : Bool :=
  decide (x.owner = .link l) && x.kind.holdToRun && decide (x.phase ≠ .stopping)

def keptCount (l : Link) (s : State) : Nat := (s.sessions.filter (Session.keptBy l)).length

def keepSessions (l : Link) (s : State) : State :=
  { s with sessions := s.sessions.map fun x => if x.keptBy l then { x with keepDue := some (keepFrom s) } else x }

/-! ### STOP (04 R66) -/

def stopChannel (c : Channel) (s : State) : State :=
  match sessionOn c s with
  | some x => forceEnd x.cover .stopped none s
  | none => s

def stopAllSessions (s : State) : State := forceEndAll (s.sessions.map (·.cover)) .stopped none s

/-! ### The run limit (04 R68) -/

/-- What the expiry of a session's run limit does. -/
def expireRun (x : Session) (s : State) : State :=
  match x.cover with
  | .allJacks => stageExpired s
  | .one (.jack _) => softEnd x.cover .timeout s
  | .one c => if x.kind = .jog then softEnd x.cover .timeout s else occur (.channel c) .runTimeout s

/-- The takeover of an awning by the Wind Monitor (09 R158). -/
def takeOver (a : Awning) (s : State) : State := s |> stopChannel (.awning a) |> internalRetract a .windTrip

end Sys2Proof.Machine
end

