-- ==== Sys2Proof/Machine/Sequencer.lean ====
section
/-! DEFINITION. The Program Sequencer (10): chains, steps, pairs, advances, suspension and the owner's requests; and the
deferred relevel of 07 R125, which a run's end may release. -/

namespace Sys2Proof.Machine

/-! ### Steps (10 R162) -/

def stepRec (k : StepIndex) (s : State) : StepRec := s.settings.pool[k]

/-- The channel a slide or awning step moves: the stored one, or the first of the kind's set. -/
def StepRec.slide (r : StepRec) : Slide :=
  match r.channel with
  | some (.slide i) => i
  | _ => 0

def StepRec.awning (r : StepRec) : Awning :=
  match r.channel with
  | some (.awning a) => a
  | _ => 0

/-- The end that skip_if_done tests (10 R162). -/
def endStands (r : StepRec) (s : State) : Bool :=
  match r.kind with
  | .touchdown => jacksAllContact s
  | .level => levelled s
  | .jacksUp => allJacks.all fun j => s.jacks[j].state = .stowed
  | .slideOut => s.slides[r.slide].state = .extended
  | .slideIn => s.slides[r.slide].state = .stowed
  | .awningOut => s.awnings[r.awning].state = .extended
  | .awningIn => s.awnings[r.awning].state = .stowed
  | .confirm => false

/-- The step is DONE at once (10 R167). -/
def skipsNow (r : StepRec) (s : State) : Bool := r.skipIfDone && endStands r s

def StepRec.isSlide (r : StepRec) : Bool := r.kind = .slideOut || r.kind = .slideIn

/-- Two step records that pair_next may join (10 R162). -/
def pairable (r n : StepRec) : Bool :=
  r.pairNext && r.isSlide && decide (r.kind = n.kind) && decide (r.slide ≠ n.slide)

/-- The request of a step (10 R167); CONFIRM has none. -/
def stepAsk (owner : Link) (k : StepIndex) (r : StepRec) : Option Ask :=
  let origin := Origin.step k
  match r.kind with
  | .touchdown => some ⟨.allJacks, .touchdown, .link owner, origin, .oneTouch, none, none⟩
  | .level => some ⟨.allJacks, .level, .link owner, origin, .oneTouch, none, none⟩
  | .jacksUp => some ⟨.allJacks, .jacksUp, .link owner, origin, .oneTouch, some .inward, none⟩
  | .slideOut => some ⟨slideCover r.slide, .move, .link owner, origin, .hold, some .outward, none⟩
  | .slideIn => some ⟨slideCover r.slide, .move, .link owner, origin, .hold, some .inward, none⟩
  | .awningOut => some ⟨awningCover r.awning, .move, .link owner, origin, .oneTouch, some .outward, none⟩
  | .awningIn => some ⟨awningCover r.awning, .move, .link owner, origin, .oneTouch, some .inward, none⟩
  | .confirm => none

/-! ### Chains (10 R163) -/

/-- A chain walked from a step, at most `n` more; `seen` holds the steps passed, newest first. -/
def walkChain (s : State) : Nat → List StepIndex → StepIndex → Option (List StepIndex)
  | 0, _, _ => none
  | n + 1, seen, k =>
    if k ∈ seen then none
    else match (stepRec k s).next with
      | none => some (k :: seen).reverse
      | some m => walkChain s n (k :: seen) m

/-- The chain of a program, or none if the program is invalid. -/
def chainOf (p : Fin 4) (s : State) : Option (List StepIndex) :=
  match s.settings.programs[p] with
  | none => none
  | some k => walkChain s Config.chainLimit [] k

/-! ### The run record (10 R165) -/

def setRun (f : RunRecord → RunRecord) (s : State) : State := { s with program.run := s.program.run.map f }

def StepStatus.passed (st : StepStatus) : Bool := st = .done || st = .skipped

/-- The chain position of the current step. -/
def RunRecord.current (r : RunRecord) : Option Nat := r.steps.findIdx? fun x => !x.status.passed

def RunRecord.anyRunning (r : RunRecord) : Bool := r.steps.any fun x => x.status = .running

/-- The chain position of a step of the pool. -/
def RunRecord.posOf (k : StepIndex) (r : RunRecord) : Option Nat := r.steps.findIdx? fun x => x.index = k

def RunRecord.statusAt (pos : Nat) (r : RunRecord) : StepStatus := ((r.steps[pos]?).map (·.status)).getD .pending

def setStatus (pos : Nat) (st : StepStatus) (s : State) : State :=
  setRun (fun r => { r with steps := r.steps.modify pos fun x => { x with status := st } }) s

/-- The two steps of an honoured pair that begins at a position. -/
def pairAt (pos : Nat) (r : RunRecord) (s : State) : Option (StepIndex × StepIndex) :=
  match r.steps[pos]?, r.steps[pos + 1]? with
  | some a, some b => if pairable (stepRec a.index s) (stepRec b.index s) then some (a.index, b.index) else none
  | _, _ => none

/-! ### Suspension (10 R172) -/

/-- A RUNNING run is suspended; a suspended one keeps its first reason. -/
def suspend (why : SuspendReason) (s : State) : State :=
  match s.program.run with
  | none => s
  | some r =>
    if r.suspended then s
    else s |> setRun (fun r => { r with suspended := true, reason := some why, suspendOwed := false })
           |> postEvent .programHalt

/-- A step fails to start (10 R168). -/
def failStep (pos : Nat) (why : SuspendReason) (s : State) : State := s |> setStatus pos .failed |> suspend why

/-- A step becomes DONE; in a RUNNING run an advance is judged, and a suspend_after is remembered (10 R170). -/
def doneStep (pos : Nat) (k : StepIndex) (s : State) : State :=
  match s.program.run with
  | none => s
  | some r =>
    let s1 := setStatus pos .done s
    if r.suspended then s1
    else s1 |> setRun (fun r => { r with suspendOwed := r.suspendOwed || (stepRec k s).suspendAfter })
            |> pushLater .advance

/-! ### Pairs (10 R176, R177) -/

/-- The supply state is Strong or Battery. -/
def supplyAllowsPair (s : State) : Bool := s.supply.state = .strong || s.supply.state = .battery

/-- What a reply of the arbiter says of a step's failure. -/
def failureOf (rep : Reply) : SuspendReason :=
  match rep.status with
  | .busy => .busy
  | .refused => match rep.reason with
    | some r => .refused r
    | none => .busy
  | _ => .noSupply

/-- The partner's request, by the grant case alone. -/
def startPartner (pos : Nat) (ask : Ask) (s : State) : State :=
  let (rep, s1) := askFresh ask true s
  match rep.status with
  | .ok => s1 |> setStatus (pos + 1) .running |> setRun fun r => { r with pair := some pos }
  | .noSupply => s1
  | _ => failStep (pos + 1) (failureOf rep) s1

/-- The pair that begins at a position is judged (10 R176). -/
def judgePair (pos : Nat) (s : State) : State :=
  match s.program.run with
  | none => s
  | some r =>
    match pairAt pos r s with
    | none => s
    | some (a, b) =>
      let ra := stepRec a s
      let rb := stepRec b s
      if !supplyAllowsPair s || !s.slides[ra.slide].homed || !s.slides[rb.slide].homed then s
      else if skipsNow rb s then doneStep (pos + 1) b s
      else match stepAsk r.owner b rb with
        | some ask => startPartner pos ask s
        | none => s

/-- Both slides of a pair allow it to run on (10 R177). -/
def pairHolds (first later : StepIndex) (s : State) : Bool :=
  let i := (stepRec first s).slide
  let j := (stepRec later s).slide
  supplyAllowsPair s
  && decide ((slideSkew i s).natAbs ≤ Config.pairSkew) && decide ((slideSkew j s).natAbs ≤ Config.pairSkew)
  && (runningSlide i s).isSome

/-- A segment report of a slide (10 R177): only the later slide's, RUNNING, in an active pair, is acted on. -/
def segmentReport (i : Slide) (s : State) : State :=
  match s.program.run with
  | none => s
  | some r =>
    match r.pair with
    | none => s
    | some pos =>
      match pairAt pos r s with
      | none => s
      | some (a, b) =>
        if (stepRec b s).slide = i ∧ (runningSlide i s).isSome ∧ !pairHolds a b s then
          s |> setStatus (pos + 1) .paused |> setRun (fun r => { r with pair := none })
            |> forceEnd (slideCover i) .stopped none
        else s

/-! ### Starting a step (10 R167, R168) -/

/-- Whether the start of a first step judges its partner at once: at a RESUME unless the partner is DONE or SKIPPED,
otherwise only a PENDING one (10 R173, R176). -/
def judgesPartner (resumed : Bool) (st : StepStatus) : Bool := if resumed then !st.passed else st = .pending

/-- A step whose session exists is RUNNING; the pair is judged now, or at the grant (10 R168, R176). -/
def stepStarted (pos : Nat) (queued resumed : Bool) (s : State) : State :=
  match s.program.run with
  | none => s
  | some r =>
    let s1 := setStatus pos .running s
    if queued then setRun (fun r => { r with pairWaits := resumed }) s1
    else if judgesPartner resumed (r.statusAt (pos + 1)) then judgePair pos s1
    else s1

/-- The step at a chain position is started. -/
def startStep (pos : Nat) (resumed : Bool) (s : State) : State :=
  match s.program.run with
  | none => s
  | some r =>
    match r.steps[pos]? with
    | none => s
    | some x =>
      let rec_ := stepRec x.index s
      if skipsNow rec_ s then doneStep pos x.index s
      else match stepAsk r.owner x.index rec_ with
        | none => suspend .confirm s
        | some ask =>
          let (rep, s1) := askFresh ask false s
          match rep.status with
          | .ok => stepStarted pos false resumed s1
          | .clamped => stepStarted pos false resumed s1
          | .queued => stepStarted pos true resumed s1
          | _ => failStep pos (failureOf rep) s1

/-! ### Advancing (10 R170, R171) -/

/-- The chain is complete. -/
def completeRun (s : State) : State :=
  { s with program.run := none, program.lastOutcome := .completed } |> postEvent .programEnd |> pushLater .relevel

/-- The advance is judged. -/
def advance (s : State) : State :=
  match s.program.run with
  | none => s
  | some r =>
    if r.suspended || r.anyRunning then s
    else match r.current with
      | none => completeRun s
      | some pos =>
        let isConfirm : Bool := match r.steps[pos]? with
          | some x => decide ((stepRec x.index s).kind = .confirm)
          | none => false
        if r.suspendOwed then suspend .suspendAfter s
        else if isConfirm then startStep pos false s
        else if r.keepDue ≤ s.now then suspend .runKeepLost s
        else startStep pos false s

/-! ### Ends and grants handed on (10 R168, R169) -/

/-- The suspend reason of an end code. -/
def endReason : EndCode → Option SuspendReason
  | .keepLost => some .keepLost
  | .stopped => some .stopped
  | .interlock => some .interlock
  | .fault => some .fault
  | .timeout => some .stopped
  | _ => none

/-- The suspend reason of a level outcome that is not LEVELLED. -/
def levelReason : LevelOutcome → SuspendReason
  | .limit => .limit
  | .tooSteep => .tooSteep
  | _ => .notReached

/-- The table of 10 R169, for a step that is RUNNING. -/
def takeEnd (pos : Nat) (k : StepIndex) (code : EndCode) (outcome : LevelOutcome) (s : State) : State :=
  match code with
  | .done =>
    if (stepRec k s).kind = .level ∧ outcome ≠ .levelled then failStep pos (levelReason outcome) s
    else doneStep pos k s
  | .noSupply => failStep pos .noSupply s
  | code =>
    match endReason code with
    | some why => s |> setStatus pos .interrupted |> suspend why
    | none => s

/-- A pair ends when either of its steps leaves RUNNING (10 R177). -/
def dropPair (pos : Nat) (s : State) : State :=
  setRun (fun r => { r with
    pair := match r.pair with
      | some p => if pos = p ∨ pos = p + 1 then none else some p
      | none => none }) s

/-- The end of a step's session is handed on; a PAUSED step takes no status from it. -/
def stepEnded (k : StepIndex) (code : EndCode) (outcome : LevelOutcome) (s : State) : State :=
  match s.program.run with
  | none => s
  | some r =>
    match r.posOf k with
    | none => s
    | some pos =>
      let s1 := dropPair pos s
      if r.statusAt pos = .running then takeEnd pos k code outcome s1 else s1

/-- No step but the one at a chain position is RUNNING. -/
def RunRecord.runsAlone (pos : Nat) (r : RunRecord) : Bool :=
  r.steps.zipIdx.all fun x => x.2 = pos || !decide (x.1.status = .running)

/-- The grant of a waiting step session is handed on. While another step is RUNNING, as when a pair's later slide is
granted again, no pair is judged: at most two steps are RUNNING (10 R165; log 39). -/
def stepGranted (k : StepIndex) (s : State) : State :=
  match s.program.run with
  | none => s
  | some r =>
    match r.posOf k with
    | none => s
    | some pos =>
      let st := r.statusAt (pos + 1)
      let s1 := setRun (fun r => { r with pairWaits := false }) s
      if r.statusAt pos = .running ∧ r.runsAlone pos ∧ (st = .pending ∨ (st = .paused ∧ r.pairWaits))
      then judgePair pos s1 else s1

/-! ### Requests (10 R166, R173 to R175) -/

def newRun (p : Fin 4) (l : Link) (chain : List StepIndex) (s : State) : RunRecord where
  program := p
  owner := l
  suspended := false
  steps := chain.map fun k => ⟨k, .pending⟩
  reason := none
  keepDue := keepFrom s
  pair := none
  pairWaits := false
  suspendOwed := false

/-- RUN_PROGRAM (10 R166). -/
def judgeRunProgram (l : Link) (number : Byte) (s : State) : Reply × State :=
  if !permits l .sequence s then (statusReply .notPermitted, s)
  else if s.control.mode = .service then (statusReply .badState, s)
  else if h : number.toNat < 4 then
    if hasRun s then (statusReply .busy, s)
    else match chainOf ⟨number.toNat, h⟩ s with
      | none => (statusReply .badProgram, s)
      | some chain =>
        (statusReply .ok,
         { s with program.run := some (newRun ⟨number.toNat, h⟩ l chain s) } |> startStep 0 false)
  else (statusReply .badArg, s)

/-- The run of a RESUME or SKIP_STEP that is taken, or the status that turns it away (10 R173, R174). -/
def ownRun (l : Link) (s : State) : Status × Option RunRecord :=
  if !permits l .sequence s then (.notPermitted, none)
  else match s.program.run with
    | none => (.badState, none)
    | some r =>
      if r.owner ≠ l then (.notPermitted, none)
      else if s.control.mode = .service ∨ !r.suspended then (.badState, none)
      else if r.anyRunning then (.busy, none)
      else (.ok, some r)

/-- The run goes on: RUNNING, no reason, a fresh keep deadline. -/
def reopenRun (s : State) : State :=
  setRun (fun r => { r with
    suspended := false, reason := none, keepDue := keepFrom s, pairWaits := false, suspendOwed := false }) s

/-- RESUME (10 R173). A run all of whose steps are DONE or SKIPPED advances, and so is complete (log 53). -/
def judgeResume (l : Link) (s : State) : Reply × State :=
  match ownRun l s with
  | (_, some r) =>
    let s1 := reopenRun s
    let s2 := match r.current with
      | none => pushLater .advance s1
      | some pos =>
        match r.steps[pos]? with
        | none => s1
        | some x => if (stepRec x.index s).kind = .confirm then doneStep pos x.index s1 else startStep pos true s1
    (statusReply .ok, s2)
  | (st, none) => (statusReply st, s)

/-- SKIP_STEP (10 R174). In a run all of whose steps are DONE or SKIPPED it skips nothing, and the run is complete
(log 53). -/
def judgeSkipStep (l : Link) (s : State) : Reply × State :=
  match ownRun l s with
  | (_, some r) =>
    let s1 := reopenRun s
    let s2 := match r.current with
      | none => s1
      | some pos => setStatus pos .skipped s1
    (statusReply .ok, pushLater .advance s2)
  | (st, none) => (statusReply st, s)

/-- The sessions of program steps. -/
def stepCovers (s : State) : List Cover :=
  (s.sessions.filter fun x => match x.origin with | .step _ => true | _ => false).map (·.cover)

def judgeAbort (l : Link) (s : State) : Reply × State :=
  if !permits l .sequence s then (statusReply .notPermitted, s)
  else if !hasRun s then (statusReply .badState, s)
  else
    (statusReply .ok,
     { s with program.run := none, program.lastOutcome := .aborted }
     |> forceEndAll (stepCovers s) .stopped none |> postEvent .programEnd |> pushLater .relevel)

/-! ### KEEP and STOP ALL (10 R171, R172) -/

def keepsRun (l : Link) (s : State) : Bool :=
  match s.program.run with
  | some r => r.owner = l
  | none => false

def keepRun (l : Link) (s : State) : State :=
  if keepsRun l s then setRun (fun r => { r with keepDue := keepFrom s }) s else s

/-! ### The deferred relevel (07 R125) -/

/-- Some slide or awning session exists. -/
def slideOrAwningSession (s : State) : Bool := s.sessions.any fun x => x.cover.isSlide || x.cover.isAwning

/-- The relevel is asked for once nothing holds it back. -/
def judgeRelevel (s : State) : State :=
  if s.level.deferred && levelled s && !slideOrAwningSession s && !hasRun s then
    { s with level.deferred := false }
    |> askInternal ⟨.allJacks, .level, .internal, .relevel, .oneTouch, none, none⟩
  else s

end Sys2Proof.Machine
end

