-- ==== Sys2Proof/Machine/ModeControl.lean ====
section
/-! DEFINITION. The Mode Controller (12): timers, Sleep and waking, Service, the start-up load, motion reset, full reset and
power. -/

namespace Sys2Proof.Machine

/-! ### Timers (12 R197, R199, R200) -/

/-- The conditions under which the idle timer runs (12 R199). -/
def idleHolds (s : State) : Bool :=
  decide (s.control.mode = .ready) && s.sessions.isEmpty && !hasRun s && !ignitionOn s

/-- The idle timer starts when its conditions become true and stops when one fails. -/
def judgeIdle (s : State) : State :=
  if idleHolds s then
    if s.control.idleDue.isSome then s else { s with control.idleDue := some (s.now + Config.idleTime) }
  else { s with control.idleDue := none }

/-- A taken request restarts the Service inactivity timer if it comes from the owner. -/
def restartService (l : Link) (s : State) : State :=
  if s.control.mode = .service ∧ s.control.serviceOwner = some l then
    { s with control.serviceDue := some (s.now + Config.serviceTime) }
  else s

/-- A taken request other than CHASSIS_STATUS restarts a running idle timer, and closes an open wake window with its
mark set. -/
def restartIdle (s : State) : State :=
  { s with
    control.idleDue := s.control.idleDue.map fun _ => s.now + Config.idleTime
    control.wakeFrameMark := s.control.wakeFrameMark || s.control.wake.isSome
    control.wake := none }

/-! ### Sleep (12 R199) -/

/-- 09 R160: wind watch is armed while either awning is not STOWED. -/
def windArmed (s : State) : Bool := allAwnings.any fun a => !decide (s.awnings[a].state = .stowed)

/-- The sampler stops; out-of-window counts become 0 (02 R35). -/
def stopSampler (s : State) : State :=
  { s with
    sampler.running := false
    sampler.slots := updAll s.sampler.slots fun _ r => { r with outCount := 0 } }

/-- P1 to P10 are switched off: coast windows close, stall-start times end (03 R52). -/
def switchOffHalls (s : State) : State :=
  { s with
    pulse.offSince := some s.now
    pulse.inputs := updAll s.pulse.inputs fun _ h => { h with coast := none, stallStart := none } }

/-- P11 is switched off unless wind watch is armed (03 R52, 09 R160). -/
def judgeWindWatch (s : State) : State :=
  if windArmed s then s
  else { s with
    pulse.wind := { on := false, lastEdge := none, period := none, quiet := true }
    wind.speed := 0
    wind.gusts := 0 }

/-- A receiver at Sleep entry: only a reply being sent goes on; it ends in HUNT, whatever arrived during it (11 R191;
log 61). -/
def Receiver.atSleep : Receiver → Receiver
  | .reply _ after => .sleptReply after
  | .sleptReply after => .sleptReply after
  | _ => .hunt

/-- Sleep entry (12 R199, 03 R45, 06 R93, 07 R124). -/
def enterSleep (s : State) : State :=
  let s1 := s |> changeMode .sleep |> askStore .posture |> stopSampler |> forceZero allOutputs |> neutralDrive true
    |> switchOffHalls |> judgeWindWatch
  { s1 with
    links := updAll s1.links fun _ l => { l with receiver := l.receiver.atSleep }
    supply.fallCount := 0
    supply.riseCount := 0
    level.drift := 0
    control.wake := none
    control.idleDue := none }

/-- Nothing stands against Sleep: READY, no session, no run record (12 R199). -/
def maySleep (s : State) : Bool := decide (s.control.mode = .ready) && s.sessions.isEmpty && !hasRun s

/-- The sampler's frames begin now, under the present settings (02 R19, R21, R35). -/
def startSampler (s : State) : State :=
  { s with sampler.running := true, sampler.frameStart := s.now, sampler.inForce := s.settings.slots }

/-- P1 to P10 are switched on again; the time asleep does not age their last edges (03 R52; log 23). -/
def switchOnHalls (s : State) : State :=
  match s.pulse.offSince with
  | none => s
  | some t =>
    { s with
      pulse.offSince := none
      pulse.inputs := updAll s.pulse.inputs fun _ h => { h with lastEdgeAt := h.lastEdgeAt + (s.now - t) } }

/-- The wake (12 R200, 02 R35, 03 R52). -/
def wakeUp (s : State) : State :=
  let s1 := s |> changeMode .ready |> startSampler |> switchOnHalls
  { s1 with
    sampler.pitch.seeded := false
    sampler.roll.seeded := false
    pulse.wind.on := true
    control.wake := some ⟨s.now + Config.wakeTime, false⟩
    control.wakeFrameMark := false }

/-- An expired wake window returns the part to SLEEP at the event of the last session's end (12 R200). -/
def wakeReturn (s : State) : State :=
  match s.control.wake with
  | some w => if w.expired ∧ maySleep s then enterSleep s else s
  | none => s

/-- The wake window runs out (12 R200). -/
def expireWake (s : State) : State :=
  if maySleep s then enterSleep s
  else { s with control.wake := s.control.wake.map fun w => { w with expired := true } }

/-! ### Service (12 R197) -/

def jogCovers (s : State) : List Cover := (s.sessions.filter fun x => x.kind = .jog).map (·.cover)

/-- The settings are stored if there is something to store; the changed mark clears. -/
def storeSettings (s : State) : State :=
  if s.control.settingsChanged || s.control.settingsDefaulted then
    askStore .settings { s with control.settingsChanged := false }
  else s

/-- The exit's three steps, at one event. -/
def exitService (s : State) : State :=
  if s.control.mode = .service then
    let s1 := s |> forceEndAll (jogCovers s) .stopped none |> storeSettings
    { s1 with control.serviceOwner := none, control.serviceDue := none } |> changeMode .ready
  else s

def enterService (l : Link) (s : State) : State :=
  { s with control.serviceOwner := some l, control.serviceDue := some (s.now + Config.serviceTime) }
  |> changeMode .service

/-- SERVICE_ENTER is taken only then (12 R197). -/
def mayEnterService (s : State) : Bool :=
  decide (s.control.mode = .ready) && s.sessions.isEmpty && !hasRun s && decide (chassisCondition s = .parked)

/-! ### Chassis condition handed on (05 R74, R75, R84, R87, 07 R123) -/

/-- HOLDING is left at a change to TRAVEL. -/
def travelEndsHolding (s : State) : State :=
  if chassisCondition s = .travel ∧ s.level.state = .holding then setLevelState .idle s else s

/-- A chassis that leaves PARKED ends Service. -/
def leaveParked (before : ChassisCondition) (s : State) : State := if before = .parked then exitService s else s

/-- A taken frame changes the brake or the speed of the last record, or is the first. -/
def changesMoving (r : ChassisRecord) (s : State) : Bool :=
  match s.interlock.record with
  | some old => decide (old.brakeSet ≠ r.brakeSet ∨ old.speed ≠ r.speed)
  | none => true

/-- What a frame or an expiry hands on: a change of condition to its four receivers, drive-away among them, in the model's
order (05 R74; log 47). A frame that leaves the condition as it was has drive-away evaluated only if it changes the brake
or the speed (05 R87). -/
def handChassis (before : ChassisCondition) (moving : Bool) (s : State) : State :=
  if chassisCondition s = before then if moving then judgeDriveAway s else s
  else s |> reevaluate .chassis |> judgeDriveAway |> leaveParked before |> travelEndsHolding

/-- The ignition edge asks for retracts (05 R89). -/
def ignitionRetract (s : State) : State :=
  allAwnings.foldl (fun s a =>
    if s.settings.autoRetract[a] && !decide (s.awnings[a].state = .stowed) then internalRetract a .ignition s
    else s) s

/-- A taken CHASSIS_STATUS (05 R73). -/
def takeChassis (r : ChassisRecord) (s : State) : State :=
  let edge := decide (r.ignition = .on) && !ignitionOn s
  let s1 := handChassis (chassisCondition s) (changesMoving r s)
    { s with interlock.record := some r, interlock.current := true,
             interlock.staleDue := some (s.now + Config.staleTime) }
  if edge then ignitionRetract s1 else s1

/-- The staleness timer runs out: the condition becomes UNKNOWN, and the change is handed on (05 R74, R75). -/
def expireStaleness (s : State) : State :=
  handChassis (chassisCondition s) false { s with interlock.current := false, interlock.staleDue := none }

/-! ### Motion reset (12 R202 and the reset rule of each chapter) -/

/-- The run record is removed (10 R178). -/
def resetRun (s : State) : State :=
  if hasRun s then { s with program.run := none, program.lastOutcome := .reset } else s

/-- The Level Controller after a motion reset (07 R130). -/
def resetLevel (s : State) : State :=
  let s1 := setLevelState .idle s
  { s1 with
    level.plan := Vector.replicate 6 {}
    level.hangCount := Vector.replicate 6 0
    level.hanging := Vector.replicate 6 false
    level.settleDue := none
    level.drift := 0
    level.deferred := false }

/-- The slides' last written directions after a motion reset (08 R147). -/
def resetSlides (s : State) : State :=
  { s with slides := updAll s.slides fun _ e =>
      { e with seating := .none, lastFront := 0, lastRear := 0, lastDir := none } }

/-- Every output falls, every session ends RESET, the run record goes, the Level Controller is IDLE, the supply tables
are emptied. `keepLast`: the last driven directions stay (03 R45). -/
def endAllMotion (keepLast : Bool) (s : State) : State :=
  let s1 := s |> forceZero allOutputs |> neutralDrive keepLast |> resetRun
  let s2 := s1 |> forceEndAll (s1.sessions.map (·.cover)) .reset none |> resetLevel |> resetSlides
  { s2 with supply.allotments := [], supply.queue := [] }

def setInterlock (x : InterlockUnit) (s : State) : State := { s with interlock := x }

/-- One posture store is asked at a motion reset (04 R72): by the last session's end, or here if there was none. Drive-away
and the alarm stay as they were; the next change of their inputs evaluates them (05 R90; log 64). -/
def motionResetNow (s : State) : State :=
  let s1 := s |> endAllMotion true |> setInterlock s.interlock
  if s.sessions.isEmpty then askStore .posture s1 else s1

/-! ### Power-on, full reset and the load (12 R196, R202) -/

/-- A write in progress ends unfinished, and its block fails its CRC from now on (12 R195, R201). -/
def spoilWrite (s : State) : State :=
  match s.memory.writing with
  | none => s
  | some w => spoilBlock w.block s

/-- Everything at its power-on value but the clock, the memory's bytes, the free choices and the waiting commands
(12 R196, R202; log 32). -/
def rebuild (s : State) : State where
  now := s.now
  drive := freshDrive s.now
  pulse := { inputs := Vector.replicate 10 { lastEdgeAt := s.now } }
  memory := { bytes := s.memory.bytes }
  freeCount := s.freeCount
  pending := s.pending

/-- The end of a FULL_RESET's reply (12 R202). -/
def beginFullReset (s : State) : State :=
  let s1 := s |> endAllMotion false |> askStore .posture |> stopSampler
  { s1 with
    control.mode := .loading, control.load := .awaitWrites, control.serviceOwner := none, control.serviceDue := none,
    control.idleDue := none, control.wake := none }

/-- The settings block's read ends (12 R196 item 1). -/
def loadSettings (answers : Bool) (s : State) : State :=
  let s1 := match answers, storedSettings s.memory.bytes with
    | true, some x => { s with settings := x }
    | _, _ => postEvent .configDefaulted
        { s with settings := Settings.defaults, control.settingsDefaulted := true }
  startSampler { s1 with control.load := .posture }

/-- A slide from a valid posture block (01 R12). -/
def loadSlide (i : Slide) (m : SlideImage) (s : State) : State :=
  let s1 := s |> setHall (frontHall i) (fun h => { h with count := m.front })
    |> setHall (rearHall i) (fun h => { h with count := m.rear })
    |> updSlide i fun _ => { s.slides[i] with
        homed := m.homed, wasStowed := decide (m.state = .stowed), seatedHome := false, stalledOut := false }
  updSlide i (fun e => { e with state := slideRest i s1 }) s1

/-- An awning from a valid posture block (01 R12). -/
def loadAwning (a : Awning) (m : AwningImage) (s : State) : State :=
  let s1 := s |> setHall (awningHall a) (fun h => { h with count := m.count })
    |> updAwning a fun _ => { s.awnings[a] with
        homed := m.homed, wasStowed := decide (m.state = .stowed), seatedHome := false }
  updAwning a (fun e => { e with state := awningRest a s1 }) s1

def loadPostureImage (m : PostureImage) (s : State) : State :=
  let s1 := allSlides.foldl (fun s i => loadSlide i m.slides[i] s) s
  allAwnings.foldl (fun s a => loadAwning a m.awnings[a] s) s1

/-- Every slide and awning is left UNHOMED (01 R12). -/
def losePosture (s : State) : State :=
  postEvent .postureLost
    { s with
      pulse.inputs := updAll s.pulse.inputs fun _ h => { h with count := 0 }
      slides := updAll s.slides fun _ e =>
        { e with homed := false, state := .unhomed, wasStowed := false, seatedHome := false, stalledOut := false }
      awnings := updAll s.awnings fun _ e =>
        { e with homed := false, state := .unhomed, wasStowed := false, seatedHome := false } }

/-- In both cases of 01 R12 every fault record, P's included, is clear and every stray tally is 0 (03 R53; log 20). -/
def clearLoaded (s : State) : State :=
  { s with
    pulse.inputs := updAll s.pulse.inputs fun _ h => { h with stray := 0 }
    jacks := updAll s.jacks fun _ e => { e with fault := {} }
    slides := updAll s.slides fun _ e => { e with fault := {} }
    awnings := updAll s.awnings fun _ e => { e with fault := {} }
    pumpFault := {} }

/-- The posture block's read ends, and with it the load (12 R196 items 2 and 3). -/
def loadPosture (answers : Bool) (s : State) : State :=
  let s1 := match answers, storedPosture s.memory.bytes with
    | true, some m => loadPostureImage m s
    | _, _ => losePosture s
  { clearLoaded s1 with control.load := .none } |> judgeDriveAway |> changeMode .ready

end Sys2Proof.Machine
end

