-- ==== Sys2Proof/Machine/WindMonitor.lean ====
section
/-! DEFINITION. The anemometer input (03 R51) and the Wind Monitor (09 R155 to R159). -/

namespace Sys2Proof.Machine

/-- A period of p ms as a speed in 0.1 m/s (09 R155). -/
def windSpeed (p : Nat) : Nat := min Config.speedCeiling (Config.speedFactor / p)

/-- The lockout starts, or starts again, at its full time (09 R159). -/
def startLockout (s : State) : State := { s with wind.lockoutDue := some (s.now + Config.lockoutTime) }

/-- An awning that is not STOWED is taken over (09 R157). The state is read at the takeover, after the ends taken before
it (log 52). -/
def takeOverOut (s : State) (a : Awning) : State := if s.awnings[a].state = .stowed then s else takeOver a s

/-- Both awnings, A1 first (09 R157). -/
def takeOverAll (s : State) : State := allAwnings.foldl takeOverOut s

/-- An awning EXTEND session exists, so that the order of the two effects of a lockout start shows. -/
def someExtend (s : State) : Bool := s.sessions.any fun x => x.cover.isAwning && decide (x.dir = some .outward)

/-- The start of a lockout is handed to re-evaluation before the takeovers, between them, or after them (05 R86,
09 R158; log 9). -/
def lockoutAndTakeOver (starts : Bool) (s : State) : State :=
  let open_ := starts && someExtend s
  let (judgeFirst, s1) := drawIf open_ true s
  let (judgeSecond, s2) := drawIf (open_ && !judgeFirst) false s1
  if !starts then takeOverAll s2
  else if judgeFirst then s2 |> reevaluate .lockout |> takeOverAll
  else if judgeSecond then takeOverOut (reevaluate .lockout (takeOverOut s2 0)) 1
  else s2 |> takeOverAll |> reevaluate .lockout

def wakeIfAsleep (s : State) : State := if s.control.mode = .sleep then wakeUp s else s

/-- A trip, in the order of 09 R157; the gust counter becomes 0. -/
def windTripNow (s : State) : State :=
  let starts := s.wind.lockoutDue.isNone
  { s with wind.gusts := 0 } |> postEvent .windTrip |> startLockout |> wakeIfAsleep |> lockoutAndTakeOver starts

/-- A gust sample while the lockout runs restarts it (09 R156, R159). -/
def restartLockout (s : State) : State := if s.wind.lockoutDue.isSome then startLockout s else s

/-- The gust counter takes a sample (09 R156). -/
def countGust (v : Nat) (s : State) : State :=
  if Config.gustSpeed ≤ v then
    let s1 := restartLockout s
    if s.settings.windTripCount ≤ s.wind.gusts + 1 then windTripNow s1
    else { s1 with wind.gusts := s.wind.gusts + 1 }
  else if v ≤ Config.calmSpeed then { s with wind.gusts := 0 }
  else s

/-- A speed sample: in LOADING it sets the speed only (09 R155). -/
def windSample (v : Nat) (s : State) : State :=
  let s1 := { s with wind.speed := v }
  if s.control.mode = .loading then s1 else countGust v s1

def setWind (f : Anemometer → Anemometer) (s : State) : State := { s with pulse.wind := f s.pulse.wind }

/-- A rising edge on P11 while it is on (03 R51). -/
def takeWindEdge (s : State) : State :=
  match s.pulse.wind.lastEdge with
  | none => setWind (fun w => { w with lastEdge := some s.now }) s
  | some t =>
    let since := s.now - t
    if since < Config.bounceTime then s
    else if since ≤ Config.quietTime then
      let p := since / 1000
      s |> setWind (fun w => { w with lastEdge := some s.now, period := some p, quiet := false })
        |> windSample (windSpeed p)
    else setWind (fun w => { w with lastEdge := some s.now, period := none, quiet := false }) s

/-- 3000 ms without an edge: a sample of 0 (03 R51). -/
def takeNoPulse (s : State) : State := s |> setWind (fun w => { w with period := none, quiet := true }) |> windSample 0

end Sys2Proof.Machine
end

