-- ==== Sys2Proof/Machine/SettingsAccess.lean ====
section
/-! DEFINITION. READ_SETTING, WRITE_SETTING (12 section 12.4, R198, 02 R21, R33, 10 R162) and CAPTURE_LEVEL (07 R129). -/

namespace Sys2Proof.Machine

/-! ### Setting numbers (12 section 12.4) -/

/-- What a setting number names. -/
inductive SettingKey where
  | permission (l : Link)
  | pumpAmps
  | slideAmps
  | awningAmps
  | keepWindow
  | tolerance
  | autoRelevel
  | jackX (j : Jack)
  | jackY (j : Jack)
  | maxStroke (j : Jack)
  | slideFull (i : Slide)
  | awningFull (a : Awning)
  | clearance (a : Awning)
  | windTripCount
  | support (i : Slide)
  | conflict (a : Awning)
  | autoRetract (a : Awning)
  | slot (slot : Slot) (item : Fin 10)
  | program (p : Fin 4)
  | step (k : StepIndex) (field : Fin 4)
deriving DecidableEq, Repr

/-- The n-th of `m` settings that begin at index `base`. -/
def nth (m base i : Nat) : Option (Fin m) :=
  if h : base ≤ i ∧ i - base < m then some ⟨i - base, h.2⟩ else none

def levellingKey (i : Nat) : Option SettingKey :=
  if i = 1 then some .tolerance
  else if i = 2 then some .autoRelevel
  else match nth 6 3 i with
    | some j => some (.jackX j)
    | none => match nth 6 9 i with
      | some j => some (.jackY j)
      | none => (nth 6 15 i).map .maxStroke

def awningKey (i : Nat) : Option SettingKey :=
  match nth 2 1 i with
  | some a => some (.awningFull a)
  | none => match nth 2 3 i with
    | some a => some (.clearance a)
    | none => if i = 5 then some .windTripCount else none

def interlockKey (i : Nat) : Option SettingKey :=
  match nth 4 1 i with
  | some x => some (.support x)
  | none => match nth 2 5 i with
    | some a => some (.conflict a)
    | none => (nth 2 7 i).map .autoRetract

/-- The settings that only slots with an exceedance counter have are no settings of the others (log 14). -/
def slotKey (i : Nat) : Option SettingKey :=
  match nth 16 0 (i / 16), nth 10 0 (i % 16) with
  | some slot, some item => if 7 ≤ item.val ∧ !hasExceedance slot then none else some (.slot slot item)
  | _, _ => none

def stepKey (i : Nat) : Option SettingKey :=
  match nth 32 0 (i / 4), nth 4 0 (i % 4) with
  | some k, some f => some (.step k f)
  | _, _ => none

/-- The setting a number names, if any: the high byte the group, the low byte the index. -/
def settingKey (number : Word) : Option SettingKey :=
  let i := number.toNat % 256
  match number.toNat / 256 with
  | 1 => (nth 4 1 i).map .permission
  | 2 => if i = 1 then some .pumpAmps else if i = 2 then some .slideAmps else if i = 3 then some .awningAmps else none
  | 3 => if i = 1 then some .keepWindow else none
  | 4 => levellingKey i
  | 5 => (nth 4 1 i).map .slideFull
  | 6 => awningKey i
  | 7 => interlockKey i
  | 8 => slotKey i
  | 9 => (nth 4 0 i).map .program
  | 10 => stepKey i
  | _ => none

/-- The value's size in bytes. -/
def SettingKey.size : SettingKey → Nat
  | .keepWindow => 2
  | .tolerance => 2
  | .autoRelevel => 2
  | .jackX _ => 2
  | .jackY _ => 2
  | .maxStroke _ => 2
  | .slideFull _ => 2
  | .awningFull _ => 2
  | .clearance _ => 2
  | .windTripCount => 2
  | .slot _ _ => 2
  | _ => 1

/-! ### Reading -/

def readSlot (c : SlotSettings) (item : Fin 10) : Nat :=
  match item with
  | 0 => boolBit c.enabled
  | 1 => c.conversions
  | 2 => c.signs.toNat
  | 3 => c.gain
  | 4 => signed 16 c.offset
  | 5 => signed 16 c.windowMin
  | 6 => signed 16 c.windowMax
  | 7 => signed 16 c.threshold
  | 8 => signed 16 c.release
  | 9 => c.tripCount

def readStep (r : StepRec) (field : Fin 4) : Nat :=
  match field with
  | 0 => r.kind.code
  | 1 => (r.channel.map Channel.code).getD 0
  | 2 => stepFlags r
  | 3 => stepCode r.next

/-- A setting's present value, coded. -/
def readKey (key : SettingKey) (x : Settings) : Nat :=
  match key with
  | .permission l => (x.permissions[l]).toNat
  | .pumpAmps => x.pumpAmps
  | .slideAmps => x.slideAmps
  | .awningAmps => x.awningAmps
  | .keepWindow => x.keepWindow
  | .tolerance => x.tolerance
  | .autoRelevel => boolBit x.autoRelevel
  | .jackX j => signed 16 x.jackX[j]
  | .jackY j => signed 16 x.jackY[j]
  | .maxStroke j => x.maxStroke[j]
  | .slideFull i => x.slideFull[i]
  | .awningFull a => x.awningFull[a]
  | .clearance a => x.clearance[a]
  | .windTripCount => x.windTripCount
  | .support i => boolBit x.support[i]
  | .conflict a => (x.conflict[a]).toNat
  | .autoRetract a => boolBit x.autoRetract[a]
  | .slot slot item => readSlot x.slots[slot] item
  | .program p => stepCode x.programs[p]
  | .step k field => readStep x.pool[k] field

/-- READ_SETTING (12 R198): the number and the value. -/
def judgeReadSetting (number : Word) (s : State) : Reply :=
  match settingKey number with
  | none => statusReply .badArg
  | some key => { status := .ok, data := bytesOf 2 number.toNat ++ bytesOf key.size (readKey key s.settings) }

/-! ### Values written -/

/-- A value and whether it had to be changed to be stored. -/
structure Stored (α : Type) where
  value : α
  clamped : Bool
deriving DecidableEq, Repr

def storeNat (lo hi v : Nat) : Stored Nat := ⟨clampNat lo hi v, decide (v < lo ∨ hi < v)⟩

def storeInt (lo hi : Int) (v : Nat) : Stored Int :=
  ⟨clampInt lo hi (asSigned v), decide (asSigned v < lo ∨ hi < asSigned v)⟩

/-- On or off; above 1 is on (log 13). -/
def storeBool (v : Nat) : Stored Bool := ⟨decide (1 ≤ v), decide (1 < v)⟩

/-- A set of `w` members; what is stored for bits that name none is free (log 11). -/
def storeSet (w v : Nat) : Stored (BitVec w) :=
  if v < 2 ^ w then ⟨BitVec.ofNat w v, false⟩ else ⟨BitVec.ofNat w (Config.unnamedBits v), true⟩

/-- A step index or 0xFF; between them the nearer end of the indices (log 13). -/
def storeIndex (v : Nat) : Stored (Option StepIndex) :=
  if h : v < 32 then ⟨some ⟨v, h⟩, false⟩
  else if v = 255 then ⟨none, false⟩
  else ⟨some 31, true⟩

/-- 4, 8, 16 or 32; outside them the nearer end, between two of them a free one of the four (log 12). -/
def storeConversions (v : Nat) : Stored Nat :=
  if v = 4 ∨ v = 8 ∨ v = 16 ∨ v = 32 then ⟨v, false⟩
  else if v < 4 then ⟨4, true⟩
  else if 32 < v then ⟨32, true⟩
  else ⟨conversionsOf (Config.unlistedConversions v), true⟩

/-- A sign pattern; slots 14 and 15 keep all + (02 R21). -/
def storeSigns (slot : Slot) (v : Nat) : Stored (BitVec 4) :=
  let x := storeSet 4 v
  if 14 ≤ slot.val ∧ x.value ≠ 0 then ⟨0, true⟩ else x

/-- A bound limited to its range and then by another setting of the slot (02 R21). -/
def storeBound (v : Nat) (limit : Int → Int) : Stored Int :=
  let x := storeInt (-32000) 32000 v
  ⟨limit x.value, x.clamped || decide (limit x.value ≠ x.value)⟩

def Stored.into {α β : Type} (f : α → β) (x : Stored α) : Stored β := ⟨f x.value, x.clamped⟩

/-- A slot setting is written (02 R21). -/
def storeSlot (slot : Slot) (item : Fin 10) (v : Nat) (c : SlotSettings) : Stored SlotSettings :=
  match item with
  | 0 => (storeBool v).into fun x => { c with enabled := x }
  | 1 => (storeConversions v).into fun x => { c with conversions := x }
  | 2 => (storeSigns slot v).into fun x => { c with signs := x }
  | 3 => (storeNat 1 4095 v).into fun x => { c with gain := x }
  | 4 => (storeInt (-32000) 32000 v).into fun x => { c with offset := x }
  | 5 => (storeBound v (min · c.windowMax)).into fun x => { c with windowMin := x }
  | 6 => (storeBound v (max · c.windowMin)).into fun x => { c with windowMax := x }
  | 7 => (storeBound v (max · c.release)).into fun x => { c with threshold := x }
  | 8 => (storeBound v (min · c.threshold)).into fun x => { c with release := x }
  | 9 => (storeNat 1 100 v).into fun x => { c with tripCount := x }

/-! ### Step records (10 R162) -/

/-- The first channel of a kind's set, or none. -/
def firstChannel : StepKind → Option Channel
  | .slideOut => some (.slide 0)
  | .slideIn => some (.slide 0)
  | .awningIn => some (.awning 0)
  | .awningOut => some (.awning 0)
  | _ => none

/-- A channel suits a step's kind. -/
def suits (k : StepKind) (c : Option Channel) : Bool :=
  match firstChannel k, c with
  | some (.slide _), some (.slide _) => true
  | some (.awning _), some (.awning _) => true
  | none, none => true
  | _, _ => false

/-- A kind written onto a step whose channel no longer suits it changes the channel too, answered CLAMPED (log 33). -/
def storeKind (v : Nat) (r : StepRec) : Stored StepRec :=
  let k := kindOfCode v
  let fits := suits k r.channel
  ⟨{ r with kind := k, channel := if fits then r.channel else firstChannel k }, decide (7 < v) || !fits⟩

/-- The channel a code names, 0 for none; a code that names nothing suits no kind. -/
def storeChannel (v : Nat) (r : StepRec) : Stored StepRec :=
  let named := v = 0 ∨ (channelOfCode v).isSome
  let c := channelOfCode v
  if named ∧ suits r.kind c then ⟨{ r with channel := c }, false⟩ else ⟨{ r with channel := firstChannel r.kind }, true⟩

def storeFlags (v : Nat) (r : StepRec) : Stored StepRec :=
  (storeSet 3 v).into fun x =>
    { r with suspendAfter := x.getLsbD 2, pairNext := x.getLsbD 1, skipIfDone := x.getLsbD 0 }

def storeStep (field : Fin 4) (v : Nat) (r : StepRec) : Stored StepRec :=
  match field with
  | 0 => storeKind v r
  | 1 => storeChannel v r
  | 2 => storeFlags v r
  | 3 => (storeIndex v).into fun x => { r with next := x }

/-! ### A write -/

/-- A permission set; the Service owner keeps its own CONFIGURE (12 R198). -/
def storePermission (l : Link) (owner : Option Link) (v : Nat) : Stored (BitVec 6) :=
  let x := storeSet 6 v
  if owner = some l ∧ !x.value.getLsbD 4 then ⟨x.value ||| 0b010000, true⟩ else x

/-- The settings after a taken write, and whether the value was clamped (12 R198). -/
def storeKey (key : SettingKey) (owner : Option Link) (v : Nat) (x : Settings) : Stored Settings :=
  match key with
  | .permission l =>
    (storePermission l owner v).into fun p => { x with permissions := upd x.permissions l fun _ => p }
  | .pumpAmps => (storeNat 1 250 v).into fun n => { x with pumpAmps := n }
  | .slideAmps => (storeNat 1 250 v).into fun n => { x with slideAmps := n }
  | .awningAmps => (storeNat 1 250 v).into fun n => { x with awningAmps := n }
  | .keepWindow => (storeNat 100 1000 v).into fun n => { x with keepWindow := n }
  | .tolerance => (storeNat 5 100 v).into fun n => { x with tolerance := n }
  | .autoRelevel => (storeBool v).into fun b => { x with autoRelevel := b }
  | .jackX j => (storeInt (-8000) 8000 v).into fun n => { x with jackX := upd x.jackX j fun _ => n }
  | .jackY j => (storeInt (-3000) 3000 v).into fun n => { x with jackY := upd x.jackY j fun _ => n }
  | .maxStroke j => (storeNat 100 3500 v).into fun n => { x with maxStroke := upd x.maxStroke j fun _ => n }
  | .slideFull i => (storeNat 1000 32000 v).into fun n => { x with slideFull := upd x.slideFull i fun _ => n }
  | .awningFull a => (storeNat 500 32000 v).into fun n => { x with awningFull := upd x.awningFull a fun _ => n }
  | .clearance a => (storeNat 0 2000 v).into fun n => { x with clearance := upd x.clearance a fun _ => n }
  | .windTripCount => (storeNat 1 20 v).into fun n => { x with windTripCount := n }
  | .support i => (storeBool v).into fun b => { x with support := upd x.support i fun _ => b }
  | .conflict a => (storeSet 4 v).into fun b => { x with conflict := upd x.conflict a fun _ => b }
  | .autoRetract a => (storeBool v).into fun b => { x with autoRetract := upd x.autoRetract a fun _ => b }
  | .slot slot item =>
    (storeSlot slot item v x.slots[slot]).into fun c => { x with slots := upd x.slots slot fun _ => c }
  | .program p => (storeIndex v).into fun k => { x with programs := upd x.programs p fun _ => k }
  | .step k field => (storeStep field v x.pool[k]).into fun r => { x with pool := upd x.pool k fun _ => r }

/-- Interlock settings and clearance counts are inputs of re-evaluation (05 R84). -/
def SettingKey.reevaluates : SettingKey → Bool
  | .clearance _ => true
  | .support _ => true
  | .conflict _ => true
  | .autoRetract _ => true
  | _ => false

/-! ### Tilt offsets (02 R33) -/

def tiltClamp (v : Int) : Int := clampInt (-1500) 1500 v

/-- The last valid value and the filtered value of a tilt slot move with its offset; the value of the frame in progress
does not (log 57). -/
def shiftTilt (slot : Slot) (by_ : Int) (s : State) : State :=
  let shifted := { s with sampler.slots := upd s.sampler.slots slot fun r =>
    { r with lastValid := tiltClamp (r.lastValid + by_) } }
  if slot = 0 then
    { shifted with sampler.pitch := { s.sampler.pitch with value := tiltClamp (s.sampler.pitch.value + by_) } }
  else if slot = 1 then
    { shifted with sampler.roll := { s.sampler.roll with value := tiltClamp (s.sampler.roll.value + by_) } }
  else s

/-- The settings are replaced; both tilt slots follow their offsets; a difference sets the changed mark (12 R198). -/
def replaceSettings (x : Settings) (s : State) : State :=
  let old := s.settings
  let s1 := { s with
    settings := x, control.settingsChanged := s.control.settingsChanged || !decide (x = s.settings) }
  s1 |> (fun s => if x.slots[(0 : Slot)].offset = old.slots[(0 : Slot)].offset then s
          else shiftTilt 0 (x.slots[(0 : Slot)].offset - old.slots[(0 : Slot)].offset) s)
     |> (fun s => if x.slots[(1 : Slot)].offset = old.slots[(1 : Slot)].offset then s
          else shiftTilt 1 (x.slots[(1 : Slot)].offset - old.slots[(1 : Slot)].offset) s)

/-- A taken write. -/
def writeKey (key : SettingKey) (v : Nat) (s : State) : Reply × State :=
  let x := storeKey key s.control.serviceOwner v s.settings
  let s1 := replaceSettings x.value s
  (statusReply (doneStatus x.clamped), if key.reevaluates then pushUrgent (.reevaluate .settings) s1 else s1)

/-- Only in SERVICE, only the Service owner (12 R198, 07 R129). -/
def notServiceOwner (l : Link) (s : State) : Bool :=
  !(decide (s.control.mode = .service) && decide (s.control.serviceOwner = some l))

/-- WRITE_SETTING: number, then length (11 R183), then permission, mode and owner (12 R198). -/
def judgeWriteSetting (l : Link) (number : Word) (value : List Byte) (s : State) : Reply × State :=
  match settingKey number with
  | none => (statusReply .badArg, s)
  | some key =>
    if value.length ≠ key.size then (statusReply .badLength, s)
    else if !permits l .configure s then (statusReply .notPermitted, s)
    else if notServiceOwner l s then (statusReply .badState, s)
    else writeKey key (natOfBytes value) s

/-! ### CAPTURE_LEVEL (07 R129) -/

/-- A level, touchdown, relevel or jacks-up session exists. -/
def levelSession (s : State) : Bool := (jacksSession s).isSome

/-- The offset that zeroes an axis. -/
def capturedOffset (slot : Slot) (filtered : Int) (s : State) : Int := s.settings.slots[slot].offset - filtered

def captureSettings (s : State) : Settings :=
  { s.settings with
    slots := upd (upd s.settings.slots 0 fun c =>
        { c with offset := clampInt (-32000) 32000 (capturedOffset 0 s.sampler.pitch.value s) })
      1 fun c => { c with offset := clampInt (-32000) 32000 (capturedOffset 1 s.sampler.roll.value s) } }

def captureClamped (s : State) : Bool :=
  let p := capturedOffset 0 s.sampler.pitch.value s
  let r := capturedOffset 1 s.sampler.roll.value s
  decide (clampInt (-32000) 32000 p ≠ p) || decide (clampInt (-32000) 32000 r ≠ r)

/-- The offsets change so that the present attitude reads zero; it is a settings change. -/
def captureNow (s : State) : State :=
  let s1 := replaceSettings (captureSettings s) s
  { s1 with control.settingsChanged := true }

def judgeCaptureLevel (l : Link) (s : State) : Reply × State :=
  if !permits l .configure s then (statusReply .notPermitted, s)
  else if notServiceOwner l s then (statusReply .badState, s)
  else if !attitudeValid s then (refusal .sensorInvalid, s)
  else if levelSession s then (statusReply .busy, s)
  else (statusReply (doneStatus (captureClamped s)), captureNow s)

end Sys2Proof.Machine
end

