-- ==== Sys2Proof/Machine/Snapshot.lean ====
section
/-! DEFINITION. The posture snapshot: the two pages of 11 section 11.8 as bit fields, and the latch of R187. -/

namespace Sys2Proof.Machine

/-! ### Codes -/

def DeviceMode.code : DeviceMode → Nat
  | .loading => 0 | .ready => 1 | .service => 2 | .sleep => 3

def SupplyState.code : SupplyState → Nat
  | .critical => 0 | .low => 1 | .battery => 2 | .strong => 3

def ChassisCondition.code : ChassisCondition → Nat
  | .unknown => 0 | .travel => 1 | .parked => 2 | .unparked => 3

def Ignition.code : Ignition → Nat
  | .off => 0 | .acc => 1 | .on => 2

def Gear.code : Gear → Nat
  | .park => 0 | .neutral => 1 | .other => 2

def LevelState.code : LevelState → Nat
  | .idle => 0 | .touchdown => 1 | .settle => 2 | .lift => 3 | .recontact => 4 | .holding => 5 | .retracting => 6

def LevelOutcome.code : LevelOutcome → Nat
  | .none => 0 | .levelled => 1 | .limit => 2 | .notReached => 3 | .tooSteep => 4 | .stopped => 5 | .fault => 6

def Phase.code : Phase → Nat
  | .waiting => 1 | .running => 2 | .stopping => 3

def Kind.code : Kind → Nat
  | .hold => 0 | .oneTouch => 1 | .jog => 2

def Dir.code : Dir → Nat
  | .outward => 0 | .inward => 1

def Operation.code : Operation → Nat
  | .move => 0 | .level => 1 | .touchdown => 2 | .jacksUp => 3

/-- Last end: the end code, or 16 + r for INTERLOCK with reason r. -/
def LastEnd.endCode (x : LastEnd) : Nat :=
  match x.code with
  | .done => 1
  | .stopped => 2
  | .keepLost => 3
  | .fault => 4
  | .noSupply => 5
  | .timeout => 6
  | .reset => 7
  | .interlock => 16 + (x.reason.map Reason.code).getD 0

def StepStatus.code : StepStatus → Nat
  | .pending => 0 | .running => 1 | .done => 2 | .skipped => 3 | .interrupted => 4 | .failed => 5 | .paused => 6

def SuspendReason.code : SuspendReason → Nat
  | .busy => 1 | .noSupply => 2 | .keepLost => 3 | .stopped => 4 | .interlock => 5 | .fault => 6 | .limit => 7
  | .notReached => 8 | .tooSteep => 9 | .confirm => 10 | .suspendAfter => 11 | .runKeepLost => 12
  | .refused r => 16 + r.code

def RunOutcome.code : RunOutcome → Nat
  | .none => 0 | .completed => 1 | .aborted => 2 | .reset => 3

/-! ### Fields -/

/-- A target, 32767 for none. -/
def targetCode (t : Option Nat) : Nat := t.getD 32767

def byteLimited (x : Int) : Nat := signed 8 (clampInt (-128) 127 x)

def lastEndOf (c : Channel) (s : State) : Option LastEnd :=
  match c with
  | .jack j => s.jacks[j].lastEnd
  | .slide i => s.slides[i].lastEnd
  | .awning a => s.awnings[a].lastEnd

/-- Last end and last end owner. -/
def lastEndFields (c : Channel) (s : State) : List (Nat × Nat) :=
  match lastEndOf c s with
  | some x => [(5, x.endCode), (3, x.owner.code)]
  | none => [(5, 0), (3, 0)]

def ownerField (c : Channel) (s : State) : Nat × Nat := (3, ((ownerOf c s).map Owner.code).getD 0)

/-- Phase, kind and direction of the session that covers a channel; kind and direction read 0 without one (log 62). -/
def sessionFields (c : Channel) (s : State) : List (Nat × Nat) :=
  match sessionOn c s with
  | some x => [(2, x.phase.code), (2, x.kind.code), (1, (x.dir.map Dir.code).getD 0)]
  | none => [(2, 0), (2, 0), (1, 0)]

/-- Queue place and target of a single-channel session. -/
def placeFields (c : Channel) (s : State) : List (Nat × Nat) :=
  [(4, queuePlace (fun h => decide (h = .session (.one c))) s),
   (15, targetCode ((sessionOn c s).bind (·.target)))]

def jackFields (j : Jack) (s : State) : List (Nat × Nat) :=
  [(3, s.jacks[j].state.code), ownerField (.jack j) s, (12, jackStroke j s)]
  ++ sessionFields (.jack j) s ++ lastEndFields (.jack j) s ++ [(1, 0)]

def slideFields (i : Slide) (s : State) : List (Nat × Nat) :=
  [(3, s.slides[i].state.code), (1, boolBit s.slides[i].homed), ownerField (.slide i) s,
   (15, slidePosition i s), (8, byteLimited (slideSkew i s))]
  ++ sessionFields (.slide i) s ++ placeFields (.slide i) s ++ lastEndFields (.slide i) s ++ [(2, 0)]

def awningFields (a : Awning) (s : State) : List (Nat × Nat) :=
  [(3, s.awnings[a].state.code), (1, boolBit s.awnings[a].homed), ownerField (.awning a) s,
   (15, awningPosition a s)]
  ++ sessionFields (.awning a) s ++ placeFields (.awning a) s ++ lastEndFields (.awning a) s ++ [(2, 0)]

/-! ### Page 0 -/

/-- The fields of the last chassis record; without one they read 0. -/
def recordFields (s : State) : List (Nat × Nat) :=
  match s.interlock.record with
  | some r => [(2, r.ignition.code), (1, boolBit r.brakeSet), (2, r.gear.code), (1, boolBit r.engine)]
  | none => [(2, 0), (1, 0), (2, 0), (1, 0)]

/-- The run keep deadline of a run has passed (10 R171). -/
def runKeepPassed (s : State) : Bool :=
  match s.program.run with
  | some r => decide (r.keepDue ≤ s.now)
  | none => false

def page0Fields (s : State) : List (Nat × Nat) :=
  [(2, s.control.mode.code), (2, s.supply.state.code), (1, boolBit (supplyValid s)), (1, boolBit (attitudeValid s)),
   (1, boolBit (levelled s)), (1, boolBit s.interlock.driveAway),
   (2, (chassisCondition s).code)]
  ++ recordFields s
  ++ [(1, boolBit s.interlock.record.isSome), (1, boolBit s.control.settingsDefaulted), (1, boolBit (runKeepPassed s)),
      (2, 0), (11, (s.interlock.record.map (·.speed)).getD 0),
      (12, signed 12 s.sampler.pitch.value), (12, signed 12 s.sampler.roll.value),
      (8, heldSum s), (4, queuePlace Holder.isPump s), (3, s.level.state.code), (1, 0)]
  ++ allJacks.flatMap (fun j => jackFields j s) ++ allAwnings.flatMap (fun a => awningFields a s)

/-! ### Page 1 -/

/-- The lockout time left, in 10 s units rounded up. -/
def lockoutUnits (s : State) : Nat :=
  match s.wind.lockoutDue with
  | some t => (t - s.now + (seconds 10 - 1)) / seconds 10
  | none => 0

/-- Bit n: chain position n, before the current step, is SKIPPED; of a run that has no current step, any position
(log 63). -/
def skippedBits (r : RunRecord) : Nat :=
  let n := r.current.getD r.steps.length
  ((r.steps.take n).zipIdx.filter fun x => x.1.status = .skipped).foldl (fun acc x => acc + 2 ^ x.2) 0

/-- The status of the step after the current one. The manual gives no value where there is none, so it is a free value
(log 41). -/
def nextStatus (r : RunRecord) : Nat :=
  match r.current.bind fun n => r.steps[n + 1]? with
  | some x => x.status.code
  | none => Config.noNextStatus

/-- The fields of the run record; those the tables give no value for without one read 0 (log 62). -/
def runFields (s : State) : List (Nat × Nat) :=
  match s.program.run with
  | none => [(2, 0), (2, 0), (2, 0), (2, s.program.lastOutcome.code), (8, 0), (16, 0), (4, 0), (3, 0), (1, 0), (3, 0),
      (2, 0), (3, 0)]
  | some r =>
    let pos := r.current.getD Config.noCurrentStep
    let st := match r.current with
      | some n => (r.statusAt n).code
      | none => Config.noCurrentStep / 16
    [(2, if r.suspended then 2 else 1), (2, r.program.val), (2, r.owner.val), (2, s.program.lastOutcome.code),
     (8, (r.reason.map SuspendReason.code).getD 0), (16, skippedBits r),
     (4, pos), (3, st), (1, 0), (3, nextStatus r), (2, boolBit r.pair.isSome), (3, 0)]

/-- The operation of a jack's last end record; 0 without one (log 62). -/
def lastOperation (j : Jack) (s : State) : Nat × Nat := (2, (s.jacks[j].lastEnd.map (·.op.code)).getD 0)

def page1Fields (s : State) : List (Nat × Nat) :=
  allSlides.flatMap (fun i => slideFields i s)
  ++ [(3, s.level.outcome.code), (3, s.level.passes), (1, boolBit s.level.clamped), (1, 0),
      (8, byteLimited s.level.residualPitch), (8, byteLimited s.level.residualRoll),
      (9, s.level.drift), (10, s.wind.speed), (5, s.wind.gusts), (8, lockoutUnits s)]
  ++ runFields s ++ allJacks.map (fun j => lastOperation j s) ++ [(4, 0)]

/-! ### The latch (11 R187) -/

/-- Both pages as the state stands: 47 bytes each. -/
def capture (s : State) : Snapshot := ⟨bytesOf 47 (pack (page0Fields s)), bytesOf 47 (pack (page1Fields s))⟩

def setLink (l : Link) (f : LinkRec → LinkRec) (s : State) : State := { s with links := upd s.links l f }

/-- READ_POSTURE (11 R187). -/
def judgeReadPosture (l : Link) (page : Page) (s : State) : Reply × State :=
  match page with
  | .zero =>
    let image := capture s
    ({ status := .ok, data := image.page0 }, setLink l (fun r => { r with latch := some image }) s)
  | .one =>
    match s.links[l].latch with
    | some image => ({ status := .ok, data := image.page1 }, s)
    | none => (statusReply .noSnapshot, s)

end Sys2Proof.Machine
end

