-- ==== Sys2Proof/Machine/SamplerUnit.lean ====
section
/-! DEFINITION. The Sensor Sampler (02): from conversions to values, windows, exceedance counters, the attitude filter, and
what a frame completion hands on; with the counts a frame carries to their limits. -/

namespace Sys2Proof.Machine

/-! ### From conversions to a value (02 R22 to R24) -/

/-- The sign of conversion k, counted from 0, is − (02 R22). -/
def signMinus (signs : BitVec 4) (k : Nat) : Bool := signs.getLsbD (3 - k % 4)

/-- The accumulator over the first `n` conversions (02 R23). -/
def accumulate (signs : BitVec 4) (n : Nat) (raw : Vector (BitVec 12) 32) : Int :=
  ((raw.toList.take n).zipIdx.map fun x =>
    if signMinus signs x.2 then -(x.1.toNat : Int) else (x.1.toNat : Int)).foldl (· + ·) 0

/-- The accumulator divided by N, truncated toward zero. -/
def sampleOf (c : SlotSettings) (raw : Vector (BitVec 12) 32) : Int :=
  (accumulate c.signs c.conversions raw).tdiv c.conversions

/-- The value of a sample (02 R24). -/
def scale (c : SlotSettings) (sample : Int) : Int :=
  clampInt (-32000) 32000 ((sample * c.gain).tdiv 1024 + c.offset)

/-- The published range of a slot (02 R20). -/
def publishedRange (slot : Slot) : Int × Int :=
  if slot.val < 2 then (-1500, 1500)
  else if slot.val < 8 then (0, 2500)
  else if slot.val < 14 then (0, 3500)
  else if slot.val = 14 then (0, 2000)
  else (0, 2500)

def publish (slot : Slot) (v : Int) : Int := clampInt (publishedRange slot).1 (publishedRange slot).2 v

/-! ### Window and exceedance (02 R25, R26, R27, R29) -/

/-- The published value of an enabled slot whose value lies in its window. -/
def slotValue (slot : Slot) (c : SlotSettings) (raw : Vector (BitVec 12) 32) : Option Int :=
  let v := scale c (sampleOf c raw)
  if c.enabled && decide (c.windowMin ≤ v) && decide (v ≤ c.windowMax) then some (publish slot v) else none

/-- The exceedance counter and the tripped flag after a published value (02 R29). -/
def exceed (c : SlotSettings) (v : Int) (counter : Nat) (tripped : Bool) : Nat × Bool :=
  if c.threshold ≤ v then
    if c.tripCount ≤ counter + 1 then (c.tripCount, true) else (counter + 1, tripped)
  else if c.release ≤ v then (0, tripped)
  else (0, false)

/-- A published value enters the result part. -/
def SlotResult.takeValue (slot : Slot) (c : SlotSettings) (v : Int) (r : SlotResult) : SlotResult :=
  let (counter, tripped) := if hasExceedance slot then exceed c v r.counter r.tripped else (r.counter, r.tripped)
  { lastValid := v, sampleValid := true, outCount := 0, counter, tripped }

/-- A held frame: the third in a row clears the sample-valid flag. -/
def SlotResult.hold (r : SlotResult) : SlotResult :=
  { r with outCount := min 3 (r.outCount + 1), sampleValid := if r.outCount = 2 then false else r.sampleValid }

/-- The result part after a frame, and what the slot hands on. -/
def slotFrame (slot : Slot) (c : SlotSettings) (raw : Vector (BitVec 12) 32) (r : SlotResult) : SlotResult × SlotNews :=
  match slotValue slot c raw with
  | some v =>
    let r1 := r.takeValue slot c v
    (r1, { value := some v, tripChanged := r1.tripped != r.tripped, limit := false })
  | none => (r.hold, { value := none, tripChanged := false, limit := decide (r.outCount = 2) })

/-! ### Attitude filter (02 R32) -/

/-- One axis at a frame completion. While attitude valid is false the filtered value keeps its value (01 R11, 02 R28),
and is not seeded either; `valid` is the flag as this frame leaves it (log 44). -/
def TiltFilter.step (valid : Bool) (news : SlotNews) (f : TiltFilter) : TiltFilter :=
  match news.value with
  | some v =>
    if !valid then f
    else if f.seeded then { f with value := f.value + (v - f.value).tdiv 8 }
    else { value := v, seeded := true }
  | none => if news.limit then { f with seeded := false } else f

/-! ### The frame (02 R19, R34) -/

/-- Every slot's result and what it hands on. -/
def frameSlots (raw : RawFrame) (s : State) : FrameNews × State :=
  let news : FrameNews := updAll noNews fun slot _ =>
    (slotFrame slot s.sampler.inForce[slot] raw[slot] s.sampler.slots[slot]).2
  let s1 := { s with
    sampler.slots := updAll s.sampler.slots fun slot r => (slotFrame slot s.sampler.inForce[slot] raw[slot] r).1 }
  (news,
   { s1 with
     sampler.pitch := s.sampler.pitch.step (attitudeValid s1) news[(0 : Slot)]
     sampler.roll := s.sampler.roll.step (attitudeValid s1) news[(1 : Slot)] })

/-- The SENSOR occurrence of a slot's third out-of-window value (02 R26). -/
def sensorFault (slot : Slot) (s : State) : State :=
  match jackOfSlot slot with
  | some j => occur (.channel (.jack j)) .sensor s
  | none => if slot = pumpSlot then occur .pump .sensor s else s

/-- The occurrences of a frame, by slot: SENSOR, and OVERCURRENT when slot 15's flag is newly set (02 R26, R31). -/
def frameFaults (news : FrameNews) (s : State) : State :=
  let s1 := allSlots.foldl (fun s slot => if news[slot].limit then sensorFault slot s else s) s
  if news[pumpSlot].tripChanged && s.sampler.slots[pumpSlot].tripped then occur .pump .overcurrent s1 else s1

/-- The frame raises an occurrence. -/
def anyFault (news : FrameNews) (s : State) : Bool :=
  allSlots.any (fun slot => news[slot].limit && 2 ≤ slot.val && slot.val != 14)
  || (news[pumpSlot].tripChanged && s.sampler.slots[pumpSlot].tripped)

/-- The value completes a dwell (06 R92). -/
def completesDwell (value : Option Int) (s : State) : Bool :=
  match value with
  | some v =>
    let c := dwellCounts s.supply.state v s.supply.fallCount s.supply.riseCount
    decide (Config.dwell ≤ c.1 ∨ Config.dwell ≤ c.2)
  | none => false

/-- The occurrences of a frame, or its values. -/
def handOne (faults was : Bool) (news : FrameNews) (s : State) : State :=
  if faults then frameFaults news s else levelFrame was news s

/-- The receivers of 02 R34. Whether occurrences or values are taken first, and whether the supply's change falls before
both, between them or after both, is not fixed; the choice is drawn where it can show (log 9). -/
def handFrame (was : Bool) (news : FrameNews) (s : State) : State :=
  let busy := !s.sessions.isEmpty
  let dwells := busy && completesDwell news[supplySlot].value s
  let faults := busy && anyFault news s
  let supply := frameSupply news[supplySlot].value
  let (supplyFirst, s1) := drawIf dwells true s
  let (faultsFirst, s2) := drawIf faults true s1
  let (between, s3) := drawIf (dwells && faults && !supplyFirst) false s2
  let s4 := handOne faultsFirst was news (if supplyFirst then supply s3 else s3)
  let s5 := handOne (!faultsFirst) was news (if between then supply s4 else s4)
  if supplyFirst || between then s5 else supply s5

/-- A frame completes, and the next begins under the present settings (02 R19, R21). A frame that was in progress when a
tilt offset changed completes with the old one, its value not shifted (log 57). -/
def completeFrame (raw : RawFrame) (s : State) : State :=
  let s0 := reach (s.sampler.frameStart + Config.framePeriod) s
  let (news, s1) := frameSlots raw s0
  let s2 := handFrame (attitudeValid s0) news s1
  { s2 with sampler.inForce := s2.settings.slots, sampler.frameStart := s2.now }

/-! ### Counts that reach their limit (rows of the table that name one count; log 6) -/

def setSlot (slot : Slot) (f : SlotResult → SlotResult) (s : State) : State :=
  { s with sampler.slots := upd s.sampler.slots slot f }

/-- The next held frame would be the slot's third, or its flag has not yet followed the count. -/
def windowLimitDue (slot : Slot) (s : State) : Bool :=
  let r := s.sampler.slots[slot]
  s.sampler.running && (decide (r.outCount = 2) || (decide (r.outCount = 3) && r.sampleValid))

/-- A tilt slot's seeded mark clears with its sample-valid flag (02 R32). -/
def clearSeed (slot : Slot) (s : State) : State :=
  if slot = 0 then { s with sampler.pitch.seeded := false }
  else if slot = 1 then { s with sampler.roll.seeded := false }
  else s

/-- A slot's third consecutive out-of-window value (02 R26). -/
def takeWindowLimit (slot : Slot) (s : State) : State :=
  let s1 := s |> setSlot slot (fun r => { r with outCount := 3, sampleValid := false }) |> clearSeed slot
  let s2 := if slot = supplySlot then frameSupply none s1 else s1
  s2 |> sensorFault slot |> followAttitude (attitudeValid s)

/-- One more value at or above the threshold trips the slot (02 R29). -/
def exceedanceDue (slot : Slot) (s : State) : Bool :=
  let r := s.sampler.slots[slot]
  s.sampler.running && hasExceedance slot && !r.tripped
    && decide ((s.sampler.inForce[slot]).tripCount ≤ r.counter + 1)

/-- A tripped flag goes from clear to set (02 R29 to R31). -/
def takeExceedance (slot : Slot) (s : State) : State :=
  let s1 := setSlot slot (fun r => { r with counter := (s.sampler.inForce[slot]).tripCount, tripped := true }) s
  if slot = pumpSlot then occur .pump .overcurrent s1
  else levelFrame (attitudeValid s1) (upd noNews slot fun n => { n with tripChanged := true }) s1

/-- The fifth published pressure below the release level (07 R120). -/
def hangingDue (j : Jack) (s : State) : Bool :=
  lifting s && !s.level.hanging[j] && decide (Config.hangingTrip ≤ s.level.hangCount[j] + 1)

/-- The fiftieth value on one side (06 R92). -/
def dwellDue (d : Dwell) (s : State) : Bool :=
  supplyValid s && (match d with
    | .fall => (lowerThreshold s.supply.state).isSome && decide (Config.dwell ≤ s.supply.fallCount + 1)
    | .rise => (riseThreshold s.supply.state).isSome && decide (Config.dwell ≤ s.supply.riseCount + 1))

def completeDwell (d : Dwell) (s : State) : State :=
  match d with
  | .fall => moveSupply (stateBelow s.supply.state) true s
  | .rise => moveSupply (stateAbove s.supply.state) false s

/-- The 300th frame of drift (07 R124). -/
def driftDue (s : State) : Bool :=
  decide (s.level.state = .holding) && decide (Config.driftTrip ≤ s.level.drift + 1)

end Sys2Proof.Machine
end

