-- ==== Sys2Proof/Machine/Pulses.lean ====
section
/-! DEFINITION. The hall inputs P1 to P10 (03 R46 to R50): counted edges, stray edges, coast windows, stall reports; and the
seat timer. -/

namespace Sys2Proof.Machine

/-! ### Which way an edge counts (03 R47) -/

def drivenDir (r : DriveOutput) : Option Dir := if r.applied = 0 then none else r.dir

/-- The direction in which an edge is counted; none for a stray edge. -/
def edgeDirection (p : Hall) (s : State) : Option Dir :=
  if s.drive[servingOutput p].applied ≠ 0 then s.drive[servingOutput p].dir
  else match s.pulse.inputs[p].coast with
    | some w => some w.dir
    | none => (otherOutput p).bind fun o => drivenDir s.drive[o]

/-- One count in a direction, held within 0 to 32000 (01 R5). -/
def countStep (d : Dir) (n : Nat) : Nat :=
  match d with
  | .outward => min Config.countMax (n + 1)
  | .inward => n - 1

/-- The input's record at a counted edge (03 R47). -/
def takeCount (p : Hall) (d : Dir) (s : State) : State :=
  setHall p (fun h => { h with count := countStep d h.count, lastEdgeAt := s.now, stallReported := false }) s

/-! ### What the controllers do with it (08 R132, 09 R150) -/

/-- A changed position: it is no longer the position the session started from, and a stopped state follows it. A STOWED
slide or awning stays STOWED through coast edges (01 R6, R7; log 45). -/
def slideMoved (i : Slide) (s : State) : State :=
  s |> updSlide i (fun e => { e with wasStowed := e.wasStowed && decide (e.state = .stowed) }) |> rejudgeSlide i

def awningMoved (a : Awning) (s : State) : State :=
  s |> updAwning a (fun e => { e with wasStowed := e.wasStowed && decide (e.state = .stowed) }) |> rejudgeAwning a

/-- The edge crosses the clearance count (05 R84, 09 R150). -/
def crossesClearance (a : Awning) (old new : Nat) (s : State) : Bool :=
  decide (s.settings.clearance[a] < old) != decide (s.settings.clearance[a] < new)

def slideEdge (i : Slide) (old : Nat) (s : State) : State :=
  let s1 := if slidePosition i s = old then s else slideMoved i s
  let s2 := judgeSlideEdge i s1
  match segmentCrossed old (slidePosition i s) with
  | some _ => segmentReport i s2
  | none => s2

def awningEdge (a : Awning) (old : Nat) (s : State) : State :=
  let s1 := if awningPosition a s = old then s else awningMoved a s
  let s2 := if crossesClearance a old (awningPosition a s) s then pushUrgent (.reevaluate (.awning a)) s1 else s1
  judgeAwningEdge a s2

/-- A counted edge. -/
def countedEdge (p : Hall) (d : Dir) (s : State) : State :=
  let c := channelOfHall p
  let s1 := takeCount p d s
  match c with
  | .slide i => slideEdge i (slidePosition i s) s1
  | .awning a => awningEdge a (awningPosition a s) s1
  | .jack _ => s1

/-! ### Stray edges (03 R49, 01 R9) -/

/-- The tally reaches its limit: a homed channel is unhomed. -/
def strayLimit (p : Hall) (s : State) : State :=
  let s1 := setHall p (fun h => { h with stray := Config.strayLimit, lastEdgeAt := s.now }) s
  if homed (channelOfHall p) s then unhome (channelOfHall p) s1 else s1

def strayEdge (p : Hall) (s : State) : State :=
  let n := s.pulse.inputs[p].stray
  if n + 1 < Config.strayLimit then setHall p (fun h => { h with stray := n + 1, lastEdgeAt := s.now }) s
  else if n + 1 = Config.strayLimit then strayLimit p s
  else setHall p (fun h => { h with lastEdgeAt := s.now }) s

/-- A rising edge on a hall input that is on. -/
def takeHallEdge (p : Hall) (s : State) : State :=
  match edgeDirection p s with
  | some d => countedEdge p d s
  | none => strayEdge p s

def hallsOn (s : State) : Bool := s.pulse.offSince.isNone

/-- The ninth stray edge of a homed channel's input (log 6). -/
def strayLimitDue (p : Hall) (s : State) : Bool :=
  hallsOn s && decide (Config.strayLimit ≤ s.pulse.inputs[p].stray + 1) && homed (channelOfHall p) s
    && (edgeDirection p s).isNone

/-! ### Stall reports (03 R50) -/

/-- When the silence of a watched input becomes a stall. -/
def stallDueOf (h : HallInput) : Option Nat :=
  match h.stallStart with
  | some t => if h.stallReported then none else some (max (t + Config.stallGrace) (h.lastEdgeAt + Config.stallSilence))
  | none => none

def stallDue (p : Hall) (s : State) : Option Nat := if hallsOn s then stallDueOf s.pulse.inputs[p] else none

/-- The report goes to the controller that owns the motor. -/
def reportStall (p : Hall) (s : State) : State :=
  let s1 := setHall p (fun h => { h with stallReported := true }) s
  match channelOfHall p with
  | .slide i => slideStall i (motorOfHall p) s1
  | .awning a => awningStall a s1
  | .jack _ => s1

/-! ### The seat timer (08 R143) -/

def seatDue (i : Slide) (s : State) : Option Nat :=
  match s.slides[i].seating with
  | .oneSeated _ due => some due
  | .none => none

/-- The seat timer runs out: SEAT_TIMEOUT. -/
def expireSeat (i : Slide) (s : State) : State :=
  s |> occur (.channel (.slide i)) .seatTimeout |> updSlide i fun e => { e with seating := .none }

end Sys2Proof.Machine
end

