-- ==== Sys2Proof/Machine/Settle.lean ====
section
/-! DEFINITION. How one event is carried to its end: the work blocks hand each other is taken, ends before re-grants and
next steps (04 R70), and then the Mode Controller's timers are judged. -/

namespace Sys2Proof.Machine

/-- One piece of work. -/
def runTask (t : Task) (s : State) : State :=
  match t with
  | .reevaluate ch => reevaluate ch s
  | .zeroReached k => finishStopping k s
  | .examineHead => examineHead s
  | .stepEnded k code outcome => stepEnded k code outcome s
  | .stepGranted k => stepGranted k s
  | .advance => advance s
  | .relevel => judgeRelevel s

/-- At most `n` pieces of work: what is urgent first, then the rest, each in the order it was handed on (log 27). -/
def settle : Nat → State → State
  | 0, s => s
  | n + 1, s =>
    match s.work.urgent with
    | t :: rest => settle n (runTask t { s with work.urgent := rest })
    | [] =>
      match s.work.later with
      | t :: rest => settle n (runTask t { s with work.later := rest })
      | [] => s

/-- The end of an event: its work, the return to SLEEP that a last end brings (12 R200), the idle timer (12 R199). -/
def finish (s : State) : State := s |> settle Config.workBound |> wakeReturn |> judgeIdle

/-- An event of a powered part. Without power nothing happens but POWER_ON (log 28). -/
def event (f : State → State) (s : State) : State := if s.powered then finish (f s) else s

/-- A timed event: the clock reaches the time at which it is due, and it acts; if it is not due at all, nothing
happens (log 3, log 5). -/
def timed (due : State → Option Nat) (f : State → State) (s : State) : State :=
  event (fun s => match due s with
    | some t => f (reach t s)
    | none => s) s

/-- An event that stands only under a condition (log 5). -/
def guarded (holds : State → Bool) (f : State → State) (s : State) : State :=
  event (fun s => if holds s then f s else s) s

end Sys2Proof.Machine
end

