-- ==== Sys2Proof/Machine/Requests.lean ====
section
/-! DEFINITION. What each request's owning block answers and does (11 R184 and the rules it names), before framing. -/

namespace Sys2Proof.Machine

/-! ### KEEP and STOP (04 R64, R66) -/

def judgeKeep (l : Link) (s : State) : Reply × State :=
  ({ status := .ok, data := [byte (keptCount l s), byte (boolBit (keepsRun l s))] }, s |> keepSessions l |> keepRun l)

/-- STOP of a channel, or of all with the run's suspension (04 R66, 10 R172). The suspension is taken before the ends are
handed on (log 54). -/
def judgeStop (scope : StopScope) (s : State) : Reply × State :=
  (statusReply .ok,
   match scope with
   | .one c => stopChannel c s
   | .all => s |> stopAllSessions |> suspend .stopped)

/-! ### Level targets (07 R128) -/

def targetClamp (v : Int) : Int := clampInt (-Config.targetLimit) Config.targetLimit v

def judgeSetLevelTarget (l : Link) (pitch roll : Word) (s : State) : Reply × State :=
  if !permits l .moveJack s then (statusReply .notPermitted, s)
  else if serviceBars l s then (statusReply .badState, s)
  else
    let p := targetClamp pitch.toInt
    let r := targetClamp roll.toInt
    (statusReply (doneStatus (decide (p ≠ pitch.toInt ∨ r ≠ roll.toInt))),
     { s with level.pitchTarget := p, level.rollTarget := r })

/-! ### Events (11 R189, R190) -/

def setBox (l : Link) (f : EventBox → EventBox) (s : State) : State := { s with events := upd s.events l f }

/-- READ_EVENTS: the set goes out and is emptied; the line is judged. -/
def judgeReadEvents (l : Link) (s : State) : Reply × State :=
  ({ status := .ok, data := bytesOf 2 (s.events[l].pending).toNat },
   setBox l (fun b => EventBox.judge { b with pending := 0 }) s)

/-- The fourteen events as a set. -/
def namedEvents : Word := 0x3FFF

/-- SET_EVENT_ENABLE: bits that name no event are stored as 0. -/
def judgeSetEventEnable (l : Link) (set : Word) (s : State) : Reply × State :=
  let kept := set &&& namedEvents
  (statusReply (doneStatus (decide (kept ≠ set))), setBox l (fun b => EventBox.judge { b with enable := kept }) s)

/-! ### Faults (01 R16, R17) -/

def allHolders : List FaultHolder := allChannels.map .channel ++ [.pump]

/-- The listed channels: their codes, markers and kinds. -/
def faultList (s : State) : List Byte :=
  allHolders.flatMap fun h =>
    let r := faultOf h s
    match r.kind with
    | some k => [byte h.code, byte (128 * boolBit r.further + k.code)]
    | none => []

/-- The link has seen an active record. -/
def FaultRec.see (l : Link) (r : FaultRec) : FaultRec :=
  if r.kind.isSome then { r with seen := upd r.seen l fun _ => true } else r

def seeFaults (l : Link) (s : State) : State :=
  { s with
    jacks := updAll s.jacks fun _ e => { e with fault := e.fault.see l }
    slides := updAll s.slides fun _ e => { e with fault := e.fault.see l }
    awnings := updAll s.awnings fun _ e => { e with fault := e.fault.see l }
    pumpFault := s.pumpFault.see l }

def judgeReadFaults (l : Link) (s : State) : Reply × State :=
  ({ status := .ok, data := faultList s }, seeFaults l s)

def clearPermission : FaultHolder → Permission
  | .channel c => movePermission c
  | .pump => .moveJack

/-- CLEAR_FAULT (01 R17). -/
def judgeClearFault (l : Link) (h : FaultHolder) (s : State) : Reply × State :=
  if !permits l (clearPermission h) s then (statusReply .notPermitted, s)
  else if !faulted h s then (statusReply .ok, s)
  else if (faultOf h s).seen[l] then (statusReply .ok, setFault h {} s)
  else (statusReply .notSeen, s)

/-! ### Link status (11 R186) -/

def LinkFlags.code (f : LinkFlags) : Nat :=
  16 * boolBit f.overrun + 8 * boolBit f.crcFail + 4 * boolBit f.framing + 2 * boolBit f.overlong + boolBit f.short

def judgeReadLinkStatus (l : Link) (s : State) : Reply × State :=
  ({ status := .ok, data := [byte (s.links[l].flags).code, byte (s.settings.permissions[l]).toNat] },
   setLink l (fun r => { r with flags := {} }) s)

/-! ### Chassis status (05 R73) -/

def ignitionOf (b : Byte) : Option Ignition :=
  if b = 0 then some .off else if b = 1 then some .acc else if b = 2 then some .on else none

def gearOf (b : Byte) : Option Gear :=
  if b = 0 then some .park else if b = 1 then some .neutral else if b = 2 then some .other else none

/-- 0 or 1. -/
def flagOf (b : Byte) : Option Bool := if b = 0 then some false else if b = 1 then some true else none

/-- The record a frame carries; none if a code is not one of the values. -/
def chassisRecord (ignition brake gear : Byte) (speed : Word) (engine : Byte) : Option ChassisRecord :=
  match ignitionOf ignition, flagOf brake, gearOf gear, flagOf engine with
  | some i, some b, some g, some e => some ⟨i, b, g, min speed.toNat Config.speedMax, e⟩
  | _, _, _, _ => none

def judgeChassisStatus (l : Link) (ignition brake gear : Byte) (speed : Word) (engine : Byte) (s : State) :
    Reply × State :=
  if !permits l .chassis s then (statusReply .notPermitted, s)
  else match chassisRecord ignition brake gear speed engine with
    | none => (statusReply .badArg, s)
    | some r => (statusReply (doneStatus (decide (Config.speedMax < speed.toNat))), takeChassis r s)

/-! ### Modes and resets (12 R197, R199, R202) -/

/-- Any permission other than CHASSIS. -/
def permitsAny (l : Link) (s : State) : Bool := (s.settings.permissions[l] &&& 0b011111#6) != 0

def judgeSleep (l : Link) (s : State) : Reply × State :=
  if !permitsAny l s then (statusReply .notPermitted, s)
  else if maySleep s then ({ status := .ok, after := .sleep }, s)
  else (statusReply .badState, s)

def judgeServiceEnter (l : Link) (s : State) : Reply × State :=
  if !permits l .configure s then (statusReply .notPermitted, s)
  else if mayEnterService s then (statusReply .ok, enterService l s)
  else (statusReply .badState, s)

def judgeServiceExit (l : Link) (s : State) : Reply × State :=
  if !permits l .configure s then (statusReply .notPermitted, s)
  else if notServiceOwner l s then (statusReply .badState, s)
  else (statusReply .ok, exitService s)

/-- One of the three move permissions. -/
def permitsMove (l : Link) (s : State) : Bool := permits l .moveJack s || permits l .moveSlide s || permits l .moveAwning s

def judgeMotionReset (l : Link) (s : State) : Reply × State :=
  if !permitsMove l s then (statusReply .notPermitted, s)
  else if serviceBars l s then (statusReply .badState, s)
  else (statusReply .ok, motionResetNow s)

def judgeFullReset (l : Link) (s : State) : Reply × State :=
  if !permits l .configure s then (statusReply .notPermitted, s)
  else if serviceBars l s then (statusReply .badState, s)
  else ({ status := .ok, after := .fullReset }, s)

end Sys2Proof.Machine
end

