-- ==== Sys2Proof/Machine/Frames.lean ====
section
/-! DEFINITION. The Link Interface (11 R179 to R183, R191): receivers, frames, taking a request, and the end of a reply. -/

namespace Sys2Proof.Machine

/-! ### Taking a request (11 R182, R183) -/

/-- What a request does to the Mode Controller's timers and wake-frame mark (12 R197, R199, R200). -/
def requestTimers (l : Link) (chassis : Bool) (s : State) : State :=
  let s1 := restartService l s
  if chassis then s1 else restartIdle s1

/-- The reply goes out: the frame is built, and the receiver stands in REPLY (11 R182). -/
def sendReply (l : Link) (code : Byte) (rep : Reply) (s : State) : State :=
  setLink l (fun r => { r with
    receiver := .reply false rep.after, lastReply := frameBytes (code + 0x80) rep.payload }) s

/-- A taken request: NOT_READY in LOADING, otherwise what `judge` answers. -/
def takeRequest (l : Link) (chassis : Bool) (code : Byte) (judge : State → Reply × State) (s : State) : State :=
  let s1 := requestTimers l chassis s
  let (rep, s2) := if s1.control.mode = .loading then (statusReply .notReady, s1) else judge s1
  sendReply l code rep s2

/-! ### Bytes (11 R179, R181, R191) -/

def setFlags (l : Link) (f : LinkFlags → LinkFlags) (s : State) : State :=
  setLink l (fun r => { r with flags := f r.flags }) s

/-- The receiver takes a state, and the time of the byte that brought it there. -/
def setReceiver (l : Link) (x : Receiver) (s : State) : State :=
  setLink l (fun r => { r with receiver := x, lastByteAt := s.now }) s

/-- A start byte in SLEEP wakes the part; the frame it begins is discarded. While a reply is still being sent it is ignored
(11 R191). -/
def wakeByte (l : Link) (s : State) : State :=
  match s.links[l].receiver with
  | .reply _ _ => s
  | .sleptReply _ => s
  | _ => if chassisAlone l s then s else s |> wakeUp |> setReceiver l .discard

/-- A byte in SLEEP. -/
def sleepByte (l : Link) (b : Byte) (stopGood : Bool) (s : State) : State :=
  if b = Config.startByte ∧ stopGood then wakeByte l s else s

/-- A byte with a stop-bit error (11 R181); in a reply that began before a Sleep it is ignored (11 R191). -/
def badByte (l : Link) (s : State) : State :=
  match s.links[l].receiver with
  | .reply _ after =>
    s |> setFlags l (fun f => { f with framing := true, overrun := true }) |> setReceiver l (.reply true after)
  | .sleptReply _ => s
  | _ => s |> setFlags l (fun f => { f with framing := true }) |> setReceiver l .discard

/-- A byte in REPLY (11 R181). -/
def lateByte (l : Link) (after : AfterReply) (s : State) : State :=
  s |> setFlags l (fun f => { f with overrun := true }) |> setReceiver l (.reply true after)

/-! ### Requests from bytes (11 R183, section 11.8) -/

/-- The number two bytes spell, high byte first. -/
def wordOf (hi lo : Byte) : Word := hi ++ lo

def dirOf (b : Byte) : Option Dir := if b = 0 then some .outward else if b = 1 then some .inward else none

def kindOf (b : Byte) : Option KindAsked :=
  if b = 0 then some .default
  else if b = 1 then some .hold
  else if b = 2 then some .oneTouch
  else if b = 3 then some .jog
  else none

def badLength (s : State) : Reply × State := (statusReply .badLength, s)
def badArg (s : State) : Reply × State := (statusReply .badArg, s)

/-- A request without payload. -/
def noPayload (payload : List Byte) (judge : State → Reply × State) : State → Reply × State :=
  if payload.isEmpty then judge else badLength

def bytesReadPosture (l : Link) : List Byte → State → Reply × State
  | [p] => if p = 0 then judgeReadPosture l .zero else if p = 1 then judgeReadPosture l .one else badArg
  | _ => badLength

def bytesStop : List Byte → State → Reply × State
  | [c] =>
    if c = 0xFF then judgeStop .all
    else match channelOfCode c.toNat with
      | some c => judgeStop (.one c)
      | none => badArg
  | _ => badLength

/-- The fields of a MOVE. -/
def moveOf (l : Link) (c d k : Byte) (t : Option Word) : State → Reply × State :=
  match channelOfCode c.toNat, dirOf d, kindOf k with
  | some c, some d, some k => judgeMove l c d k t
  | _, _, _ => badArg

def bytesMove (l : Link) : List Byte → State → Reply × State
  | [c, d, k] => moveOf l c d k none
  | [c, d, k, hi, lo] => moveOf l c d k (some (wordOf hi lo))
  | _ => badLength

def bytesSetLevelTarget (l : Link) : List Byte → State → Reply × State
  | [a, b, c, d] => judgeSetLevelTarget l (wordOf a b) (wordOf c d)
  | _ => badLength

def bytesRunProgram (l : Link) : List Byte → State → Reply × State
  | [n] => judgeRunProgram l n
  | _ => badLength

def bytesSetEventEnable (l : Link) : List Byte → State → Reply × State
  | [a, b] => judgeSetEventEnable l (wordOf a b)
  | _ => badLength

def bytesClearFault (l : Link) : List Byte → State → Reply × State
  | [c] =>
    match holderOfCode c.toNat with
    | some h => judgeClearFault l h
    | none => badArg
  | _ => badLength

def bytesChassisStatus (l : Link) : List Byte → State → Reply × State
  | [i, b, g, hi, lo, e] => judgeChassisStatus l i b g (wordOf hi lo) e
  | _ => badLength

def bytesMode (l : Link) : List Byte → State → Reply × State
  | [m] =>
    if m = 0 then judgeSleep l else if m = 1 then judgeServiceEnter l else if m = 2 then judgeServiceExit l else badArg
  | _ => badLength

/-- READ_SETTING: the number is judged before the length (11 R183). -/
def bytesReadSetting : List Byte → State → Reply × State
  | a :: b :: rest => fun s =>
    if (settingKey (wordOf a b)).isNone then badArg s
    else if rest.isEmpty then (judgeReadSetting (wordOf a b) s, s) else badLength s
  | _ => badLength

/-- WRITE_SETTING: the number first, then the value's length (11 R183). -/
def bytesWriteSetting (l : Link) : List Byte → State → Reply × State
  | a :: b :: rest => judgeWriteSetting l (wordOf a b) rest
  | _ => badLength

/-- What a taken frame's code and payload ask for (11 R183 steps 2 to 4). -/
def judgeFrame (l : Link) (code : Byte) (payload : List Byte) : State → Reply × State :=
  match code.toNat with
  | 0x01 => bytesReadPosture l payload
  | 0x02 => noPayload payload (judgeKeep l)
  | 0x03 => bytesStop payload
  | 0x04 => bytesMove l payload
  | 0x05 => noPayload payload (judgeJacks l .level none)
  | 0x06 => noPayload payload (judgeJacks l .jacksUp (some .inward))
  | 0x07 => bytesSetLevelTarget l payload
  | 0x08 => bytesRunProgram l payload
  | 0x09 => noPayload payload (judgeResume l)
  | 0x0A => noPayload payload (judgeSkipStep l)
  | 0x0B => noPayload payload (judgeAbort l)
  | 0x0C => noPayload payload (judgeReadEvents l)
  | 0x0D => bytesSetEventEnable l payload
  | 0x0E => noPayload payload (judgeReadFaults l)
  | 0x0F => bytesClearFault l payload
  | 0x10 => noPayload payload (judgeReadLinkStatus l)
  | 0x11 => bytesChassisStatus l payload
  | 0x12 => bytesMode l payload
  | 0x13 => noPayload payload (judgeMotionReset l)
  | 0x14 => noPayload payload (judgeFullReset l)
  | 0x15 => bytesReadSetting payload
  | 0x16 => bytesWriteSetting l payload
  | 0x17 => noPayload payload (judgeCaptureLevel l)
  | _ => fun s => (statusReply .unknownRequest, s)

/-- A complete frame, by its bytes after the start byte: taken if its CRC matches (11 R180). -/
def completeLinkFrame (l : Link) (bytes : List Byte) (s : State) : State :=
  let n := bytes.length - 2
  let body := bytes.take n
  if bytesOf 2 (crc16 body).toNat = bytes.drop n then
    match body with
    | _ :: code :: payload => takeRequest l (code == 0x11) code (judgeFrame l code payload) s
    | _ => s
  else s |> setFlags l (fun f => { f with crcFail := true }) |> setReceiver l .hunt

/-- The byte is the frame's next field (11 R179). -/
def frameByte (l : Link) (taken : List Byte) (b : Byte) (s : State) : State :=
  let bytes := taken ++ [b]
  let n := (bytes.headD 0).toNat
  if Config.payloadMax < n then
    s |> setFlags l (fun f => { f with overlong := true }) |> setReceiver l .discard
  else if bytes.length = n + 4 then completeLinkFrame l bytes (setReceiver l (.frame bytes) s)
  else setReceiver l (.frame bytes) s

/-- A good byte outside SLEEP. -/
def goodByte (l : Link) (b : Byte) (s : State) : State :=
  match s.links[l].receiver with
  | .hunt => if b = Config.startByte then setReceiver l (.frame []) s else s
  | .frame taken => frameByte l taken b s
  | .reply _ after => lateByte l after s
  | .sleptReply _ => s
  | .discard => setReceiver l .discard s

/-- A byte on a link: by 11 R191 in SLEEP, otherwise by R179 and R181. In a reply that was being sent at a Sleep entry a byte
is ignored without a flag, in SLEEP and after a wake alike (11 R191; log 61). -/
def takeByte (l : Link) (b : Byte) (stopGood : Bool) (s : State) : State :=
  if s.control.mode = .sleep then sleepByte l b stopGood s
  else if stopGood then goodByte l b s
  else badByte l s

/-! ### A request row of the table (log 7) -/

/-- A whole request sent on a link, as its bytes would meet the receiver: it wakes a sleeping part and is discarded,
overruns a reply, is ignored in a reply that began before a Sleep, is discarded in DISCARD, and is otherwise taken. -/
def requestRow (l : Link) (chassis : Bool) (code : Byte) (judge : State → Reply × State) (s : State) : State :=
  if s.control.mode = .sleep then wakeByte l s
  else match s.links[l].receiver with
    | .reply _ after => lateByte l after s
    | .sleptReply _ => s
    | .discard => setReceiver l .discard s
    | _ => takeRequest l chassis code judge s

/-! ### Gap and quiet timers (11 R179, R181) -/

def gapDue (l : Link) (s : State) : Option Nat :=
  match s.links[l].receiver with
  | .frame _ => some (s.links[l].lastByteAt + Config.linkGap)
  | _ => none

def expireGap (l : Link) (s : State) : State :=
  s |> setFlags l (fun f => { f with short := true }) |> setLink l fun r => { r with receiver := .hunt }

def quietDue (l : Link) (s : State) : Option Nat :=
  match s.links[l].receiver with
  | .discard => some (s.links[l].lastByteAt + Config.linkGap)
  | _ => none

def expireQuiet (l : Link) (s : State) : State := setLink l (fun r => { r with receiver := .hunt }) s

/-! ### The end of a reply (11 R179, R182, R191, 12 R199, R202) -/

/-- What the end of a reply leads to. The entry into SLEEP is judged again, and abandoned if it no longer stands. -/
def afterReply (after : AfterReply) (s : State) : State :=
  match after with
  | .nothing => s
  | .sleep => if maySleep s then enterSleep s else s
  | .fullReset => beginFullReset s

/-- The receiver leaves REPLY: DISCARD if a byte arrived meanwhile, HUNT otherwise (11 R179). -/
def leaveReply (l : Link) (late : Bool) (s : State) : State := setReceiver l (if late then .discard else .hunt) s

/-- The last byte of a link's reply is sent, if the reply leads to what `only` admits. One that was being sent at a Sleep
entry ends in HUNT (11 R191). -/
def replyEnd (l : Link) (only : AfterReply → Bool) (s : State) : State :=
  match s.links[l].receiver with
  | .reply late after => if only after then s |> leaveReply l late |> afterReply after else s
  | .sleptReply after => if only after then s |> leaveReply l false |> afterReply after else s
  | _ => s

end Sys2Proof.Machine
end

