-- ==== Sys2Proof/Machine/StartMeanings.lean ====
section
/-! DEFINITION. Meanings: start-up, power and the serial memory (12 R196, R201, R202, 01 R12). -/

namespace Sys2Proof.Machine

/-- POWER_ON: first power, or recovery from a supply collapse (12 R196). A write that was in progress has spoilt its
block (12 R201). -/
def execPowerOn (s : State) : Host.Outcome State Fault Refusal := .next (rebuild (spoilWrite s))

/-- SETTINGS_BLOCK_LOADED: the settings block's read ends (12 R196 item 1). -/
def execSettingsBlockLoaded (answers : Bool) (s : State) : Host.Outcome State Fault Refusal :=
  .next (guarded (fun s => decide (s.control.mode = .loading) && decide (s.control.load = .settings))
    (loadSettings answers) s)

/-- POSTURE_BLOCK_LOADED: the posture block's read ends, and the part is READY (12 R196 items 2, 3, 01 R12). -/
def execPostureBlockLoaded (answers : Bool) (s : State) : Host.Outcome State Fault Refusal :=
  .next (guarded (fun s => decide (s.control.mode = .loading) && decide (s.control.load = .posture))
    (loadPosture answers) s)

/-- The full reset waits until the write queue is empty (12 R202). -/
def reloadDue (s : State) : Bool :=
  decide (s.control.mode = .loading) && decide (s.control.load = .awaitWrites)
    && s.memory.writing.isNone && s.memory.pendingWrites.isEmpty

/-- FULL_RESET_RELOAD: the power-on sequence begins (12 R202). -/
def execFullResetReload (s : State) : Host.Outcome State Fault Refusal := .next (guarded reloadDue rebuild s)

/-- The image that a write captured is what is stored; a settings write clears the defaulted mark (12 R201). -/
def storeImage (w : WriteImage) (s : State) : State :=
  let s1 := { s with memory.bytes := w.block.write w.put s.memory.bytes }
  match w with
  | .settings _ => { s1 with control.settingsDefaulted := false }
  | .posture _ => s1

def writeDone (s : State) : State :=
  match s.memory.writing with
  | none => s
  | some w => s |> storeImage w |> nextWrite

/-- MEMORY_WRITE_DONE (12 R201). -/
def execMemoryWriteDone (s : State) : Host.Outcome State Fault Refusal := .next (event writeDone s)

/-- Whether the block in the memory fails its CRC afterwards is free (log 10). -/
def abandonWrite (s : State) : State :=
  match s.memory.writing with
  | none => s
  | some w =>
    let (spoilt, s1) := drawChoice s
    nextWrite (if spoilt then spoilBlock w.block s1 else s1)

/-- MEMORY_WRITE_ABANDONED (12 R201). -/
def execMemoryWriteAbandoned (s : State) : Host.Outcome State Fault Refusal := .next (event abandonWrite s)

def losePower (s : State) : State :=
  let s1 := spoilWrite s
  { s1 with powered := false, memory.writing := none, memory.pendingWrites := [] }

/-- POWER_LOSS: the write in progress ends unfinished (12 R201); nothing acts until POWER_ON (log 28). -/
def execPowerLoss (s : State) : Host.Outcome State Fault Refusal :=
  .next (if s.powered then losePower s else s)

end Sys2Proof.Machine
end

