-- ==== Sys2Proof/Machine/LinkMeanings.lean ====
section
/-! DEFINITION. Meanings: receivers and replies (11 R179 to R182, R191). -/

namespace Sys2Proof.Machine

/-- LINK_BYTE: a byte, with its stop bit good or not, meets the link's receiver (11 R179, R181, R191). -/
def execLinkByte (l : Link) (b : Byte) (stopGood : Bool) (s : State) : Host.Outcome State Fault Refusal :=
  .next (event (takeByte l b stopGood) s)

/-- GAP_TIMER_EXPIRY: SHORT (11 R181). -/
def execGapTimerExpiry (l : Link) (s : State) : Host.Outcome State Fault Refusal :=
  .next (timed (gapDue l) (expireGap l) s)

/-- QUIET_TIMER_EXPIRY: DISCARD ends (11 R179). -/
def execQuietTimerExpiry (l : Link) (s : State) : Host.Outcome State Fault Refusal :=
  .next (timed (quietDue l) (expireQuiet l) s)

/-- REPLY_SENT: the last byte of a reply is sent (11 R179). -/
def execReplySent (l : Link) (s : State) : Host.Outcome State Fault Refusal :=
  .next (event (replyEnd l fun _ => true) s)

/-- SLEEP_REPLY_END: the reply to MODE SLEEP has been sent, and the entry is judged again (12 R199). -/
def execSleepReplyEnd (l : Link) (s : State) : Host.Outcome State Fault Refusal :=
  .next (event (replyEnd l fun a => decide (a = .sleep)) s)

/-- FULL_RESET_REPLY_END: the reply to FULL_RESET has been sent, and the reset begins (12 R202). -/
def execFullResetReplyEnd (l : Link) (s : State) : Host.Outcome State Fault Refusal :=
  .next (event (replyEnd l fun a => decide (a = .fullReset)) s)

end Sys2Proof.Machine
end

