-- ==== Sys2Proof/Machine/RequestMeanings.lean ====
section
/-! DEFINITION. Meanings: the requests of 11 section 11.8, each as a whole request on a link (log 7). The code is the
request's code; only CHASSIS_STATUS does not count for the idle and wake timers. -/

namespace Sys2Proof.Machine

/-- READ_POSTURE (11 R187). -/
def execReadPosture (l : Link) (page : Page) (s : State) : Host.Outcome State Fault Refusal :=
  .next (event (requestRow l false 0x01 (judgeReadPosture l page)) s)

/-- KEEP (04 R64, 10 R171). -/
def execKeep (l : Link) (s : State) : Host.Outcome State Fault Refusal :=
  .next (event (requestRow l false 0x02 (judgeKeep l)) s)

/-- STOP of a channel or ALL (04 R66, 10 R172). -/
def execStop (l : Link) (scope : StopScope) (s : State) : Host.Outcome State Fault Refusal :=
  .next (event (requestRow l false 0x03 (judgeStop scope)) s)

/-- MOVE (04 R55, R57 to R63). -/
def execMove (l : Link) (c : Channel) (d : Dir) (k : KindAsked) (target : Option Word) (s : State) :
    Host.Outcome State Fault Refusal :=
  .next (event (requestRow l false 0x04 (judgeMove l c d k target)) s)

/-- LEVEL (04 R57, 07 R108). -/
def execLevel (l : Link) (s : State) : Host.Outcome State Fault Refusal :=
  .next (event (requestRow l false 0x05 (judgeJacks l .level none)) s)

/-- JACKS_UP (04 R57, 07 R127). -/
def execJacksUp (l : Link) (s : State) : Host.Outcome State Fault Refusal :=
  .next (event (requestRow l false 0x06 (judgeJacks l .jacksUp (some .inward))) s)

/-- SET_LEVEL_TARGET (07 R128). -/
def execSetLevelTarget (l : Link) (pitch roll : Word) (s : State) : Host.Outcome State Fault Refusal :=
  .next (event (requestRow l false 0x07 (judgeSetLevelTarget l pitch roll)) s)

/-- RUN_PROGRAM (10 R166). -/
def execRunProgram (l : Link) (number : Byte) (s : State) : Host.Outcome State Fault Refusal :=
  .next (event (requestRow l false 0x08 (judgeRunProgram l number)) s)

/-- RESUME (10 R173). -/
def execResume (l : Link) (s : State) : Host.Outcome State Fault Refusal :=
  .next (event (requestRow l false 0x09 (judgeResume l)) s)

/-- SKIP_STEP (10 R174). -/
def execSkipStep (l : Link) (s : State) : Host.Outcome State Fault Refusal :=
  .next (event (requestRow l false 0x0A (judgeSkipStep l)) s)

/-- ABORT (10 R175). -/
def execAbort (l : Link) (s : State) : Host.Outcome State Fault Refusal :=
  .next (event (requestRow l false 0x0B (judgeAbort l)) s)

/-- READ_EVENTS (11 R189). -/
def execReadEvents (l : Link) (s : State) : Host.Outcome State Fault Refusal :=
  .next (event (requestRow l false 0x0C (judgeReadEvents l)) s)

/-- SET_EVENT_ENABLE (11 R190). -/
def execSetEventEnable (l : Link) (set : Word) (s : State) : Host.Outcome State Fault Refusal :=
  .next (event (requestRow l false 0x0D (judgeSetEventEnable l set)) s)

/-- READ_FAULTS (01 R16). -/
def execReadFaults (l : Link) (s : State) : Host.Outcome State Fault Refusal :=
  .next (event (requestRow l false 0x0E (judgeReadFaults l)) s)

/-- CLEAR_FAULT (01 R17). -/
def execClearFault (l : Link) (h : FaultHolder) (s : State) : Host.Outcome State Fault Refusal :=
  .next (event (requestRow l false 0x0F (judgeClearFault l h)) s)

/-- READ_LINK_STATUS (11 R186). -/
def execReadLinkStatus (l : Link) (s : State) : Host.Outcome State Fault Refusal :=
  .next (event (requestRow l false 0x10 (judgeReadLinkStatus l)) s)

/-- CHASSIS_STATUS (05 R73). -/
def execChassisStatus (l : Link) (ignition brake gear : Byte) (speed : Word) (engine : Byte) (s : State) :
    Host.Outcome State Fault Refusal :=
  .next (event (requestRow l true 0x11 (judgeChassisStatus l ignition brake gear speed engine)) s)

/-- MODE SLEEP (12 R199). -/
def execModeSleep (l : Link) (s : State) : Host.Outcome State Fault Refusal :=
  .next (event (requestRow l false 0x12 (judgeSleep l)) s)

/-- MODE SERVICE_ENTER (12 R197). -/
def execServiceEnter (l : Link) (s : State) : Host.Outcome State Fault Refusal :=
  .next (event (requestRow l false 0x12 (judgeServiceEnter l)) s)

/-- MODE SERVICE_EXIT (12 R197; log 8). -/
def execServiceExit (l : Link) (s : State) : Host.Outcome State Fault Refusal :=
  .next (event (requestRow l false 0x12 (judgeServiceExit l)) s)

/-- MOTION_RESET (12 R202). -/
def execMotionReset (l : Link) (s : State) : Host.Outcome State Fault Refusal :=
  .next (event (requestRow l false 0x13 (judgeMotionReset l)) s)

/-- FULL_RESET (12 R202). -/
def execFullReset (l : Link) (s : State) : Host.Outcome State Fault Refusal :=
  .next (event (requestRow l false 0x14 (judgeFullReset l)) s)

/-- READ_SETTING (12 R198). -/
def execReadSetting (l : Link) (number : Word) (s : State) : Host.Outcome State Fault Refusal :=
  .next (event (requestRow l false 0x15 fun s => (judgeReadSetting number s, s)) s)

/-- WRITE_SETTING (12 R198). -/
def execWriteSetting (l : Link) (number : Word) (value : List Byte) (s : State) : Host.Outcome State Fault Refusal :=
  .next (event (requestRow l false 0x16 (judgeWriteSetting l number value)) s)

/-- CAPTURE_LEVEL (07 R129). -/
def execCaptureLevel (l : Link) (s : State) : Host.Outcome State Fault Refusal :=
  .next (event (requestRow l false 0x17 (judgeCaptureLevel l)) s)

end Sys2Proof.Machine
end

