-- ==== Sys2Proof/Machine/SamplerMeanings.lean ====
section
/-! DEFINITION. Meanings: the sampler's frame and the counts it carries to their limits (02, 06 R92, 07 R120, R124). -/

namespace Sys2Proof.Machine

/-- SAMPLER_FRAME_COMPLETE (02 R19, R34). -/
def execSamplerFrameComplete (raw : RawFrame) (s : State) : Host.Outcome State Fault Refusal :=
  .next (guarded (fun s => s.sampler.running) (completeFrame raw) s)

/-- OUT_OF_WINDOW_LIMIT: a slot's third consecutive out-of-window value (02 R26; log 6). -/
def execOutOfWindowLimit (slot : Slot) (s : State) : Host.Outcome State Fault Refusal :=
  .next (guarded (windowLimitDue slot) (takeWindowLimit slot) s)

/-- EXCEEDANCE_TRIP: a slot's tripped flag is set (02 R29; log 6). -/
def execExceedanceTrip (slot : Slot) (s : State) : Host.Outcome State Fault Refusal :=
  .next (guarded (exceedanceDue slot) (takeExceedance slot) s)

/-- HANGING_COUNT_REACHED: a jack is marked hanging (07 R120; log 6). -/
def execHangingCountReached (j : Jack) (s : State) : Host.Outcome State Fault Refusal :=
  .next (guarded (hangingDue j) (setHangCount j Config.hangingTrip) s)

/-- SUPPLY_DWELL_COMPLETE: the supply state moves one band (06 R92; log 6). -/
def execSupplyDwellComplete (d : Dwell) (s : State) : Host.Outcome State Fault Refusal :=
  .next (guarded (dwellDue d) (completeDwell d) s)

/-- DRIFT_COUNTER_TRIP: LEVEL_DRIFT (07 R124; log 6). -/
def execDriftCounterTrip (s : State) : Host.Outcome State Fault Refusal := .next (guarded driftDue tripDrift s)

end Sys2Proof.Machine
end

