-- ==== Sys2Proof/Machine/PulseMeanings.lean ====
section
/-! DEFINITION. Meanings: drive outputs, pulse inputs and wind (03, 09). -/

namespace Sys2Proof.Machine

/-- PERIOD_BOUNDARY: an output's next boundary (03 R39, R41, R43, R44). -/
def execPeriodBoundary (o : Output) (s : State) : Host.Outcome State Fault Refusal := .next (event (takeBoundary o) s)

/-- When a pull-in has lasted 150 ms (03 R44). -/
def pullInDue (o : Output) (s : State) : Option Nat :=
  if isRetractValve o then (s.drive[o].pullInAt).map (· + Config.pullInTime) else none

/-- PULL_IN_END: the first boundary 150 ms or more after pull-in began (03 R44; log 6). -/
def execPullInEnd (o : Output) (s : State) : Host.Outcome State Fault Refusal :=
  .next (timed (pullInDue o) (takeBoundary o) s)

/-- HALL_EDGE (03 R47, R49). -/
def execHallEdge (p : Hall) (s : State) : Host.Outcome State Fault Refusal := .next (guarded hallsOn (takeHallEdge p) s)

/-- STRAY_TALLY_LIMIT: the ninth stray edge of a homed channel's input (03 R49, 01 R9; log 6). -/
def execStrayTallyLimit (p : Hall) (s : State) : Host.Outcome State Fault Refusal :=
  .next (guarded (strayLimitDue p) (strayLimit p) s)

/-- When an input's coast window closes (03 R48). -/
def coastDue (p : Hall) (s : State) : Option Nat := (s.pulse.inputs[p].coast).map (·.closesAt)

/-- COAST_WINDOW_CLOSE (03 R48). -/
def execCoastWindowClose (p : Hall) (s : State) : Host.Outcome State Fault Refusal :=
  .next (timed (coastDue p) (setHall p fun h => { h with coast := none }) s)

/-- STALL_REPORT (03 R50, 08 R140, 09 R153). -/
def execStallReport (p : Hall) (s : State) : Host.Outcome State Fault Refusal :=
  .next (timed (stallDue p) (reportStall p) s)

/-- ANEMOMETER_EDGE (03 R51, 09 R155). -/
def execAnemometerEdge (s : State) : Host.Outcome State Fault Refusal :=
  .next (guarded (fun s => s.pulse.wind.on) takeWindEdge s)

/-- When a silence of P11 becomes a no-pulse report (03 R51). -/
def noPulseDue (s : State) : Option Nat :=
  if s.pulse.wind.on && !s.pulse.wind.quiet then (s.pulse.wind.lastEdge).map (· + Config.quietTime) else none

/-- NO_PULSE (03 R51, 09 R155). -/
def execNoPulse (s : State) : Host.Outcome State Fault Refusal := .next (timed noPulseDue takeNoPulse s)

/-- One more gust trips the wind monitor (09 R156). -/
def windTripDue (s : State) : Bool :=
  s.pulse.wind.on && !decide (s.control.mode = .loading)
    && decide (s.settings.windTripCount ≤ s.wind.gusts + 1)

/-- WIND_TRIP (09 R157; log 6). -/
def execWindTrip (s : State) : Host.Outcome State Fault Refusal := .next (guarded windTripDue windTripNow s)

end Sys2Proof.Machine
end

