-- ==== Sys2Proof/Machine/TimerMeanings.lean ====
section
/-! DEFINITION. Meanings: deadlines, limits and timers (04 R65, R68, 05 R75, 06 R102, 07 R112, 08 R143, 09 R159, 12). -/

namespace Sys2Proof.Machine

/-- A session's keep deadline; in STOPPING it no longer runs (04 R64, R65). -/
def keepDeadline (c : Channel) (s : State) : Option Nat :=
  match sessionOn c s with
  | some x => if x.phase = .stopping then none else x.keepDue
  | none => none

/-- The session of a channel loses its owner's KEEPs (04 R65). -/
def expireKeep (c : Channel) (s : State) : State :=
  match sessionOn c s with
  | some x => softEnd x.cover .keepLost s
  | none => s

/-- KEEP_DEADLINE_EXPIRY (04 R65). -/
def execKeepDeadlineExpiry (c : Channel) (s : State) : Host.Outcome State Fault Refusal :=
  .next (timed (keepDeadline c) (expireKeep c) s)

/-- When the run time of a RUNNING session runs out (04 R68). -/
def runDeadline (c : Channel) (s : State) : Option Nat :=
  match sessionOn c s with
  | some x => if x.phase = .running then x.runFrom.map (· + x.runLeft) else none
  | none => none

def expireRunOn (c : Channel) (s : State) : State :=
  match sessionOn c s with
  | some x => expireRun x s
  | none => s

/-- RUN_LIMIT_EXPIRY (04 R68, 07, 08 R145, 09 R154). -/
def execRunLimitExpiry (c : Channel) (s : State) : Host.Outcome State Fault Refusal :=
  .next (timed (runDeadline c) (expireRunOn c) s)

/-- When a queue entry has waited 30 s (06 R102). -/
def waitDeadline (e : WaitEntry) (s : State) : Option Nat := (entryOf e s).map fun q => q.enteredAt + Config.waitLimit

def expireWait (e : WaitEntry) (s : State) : State :=
  match entryOf e s with
  | some q => expireEntry q s
  | none => s

/-- WAIT_LIMIT_EXPIRY (06 R102). -/
def execWaitLimitExpiry (e : WaitEntry) (s : State) : Host.Outcome State Fault Refusal :=
  .next (timed (waitDeadline e) (expireWait e) s)

/-- STALENESS_EXPIRY (05 R75). -/
def execStalenessExpiry (s : State) : Host.Outcome State Fault Refusal :=
  .next (timed (fun s => s.interlock.staleDue) expireStaleness s)

/-- The settle timer runs only in SETTLE with the session RUNNING (07 R112). -/
def settleDeadline (s : State) : Option Nat :=
  if s.level.state = .settle ∧ jacksRunning s then s.level.settleDue else none

/-- SETTLE_TIMER_EXPIRY: the settle measurement (07 R112, R113). -/
def execSettleTimerExpiry (s : State) : Host.Outcome State Fault Refusal := .next (timed settleDeadline measure s)

/-- SEAT_TIMER_EXPIRY (08 R143). -/
def execSeatTimerExpiry (i : Slide) (s : State) : Host.Outcome State Fault Refusal :=
  .next (timed (seatDue i) (expireSeat i) s)

/-- LOCKOUT_EXPIRY: posts nothing and ends nothing (09 R159). -/
def execLockoutExpiry (s : State) : Host.Outcome State Fault Refusal :=
  .next (timed (fun s => s.wind.lockoutDue) (fun s => { s with wind.lockoutDue := none }) s)

/-- IDLE_TIMER_EXPIRY (12 R199). -/
def execIdleTimerExpiry (s : State) : Host.Outcome State Fault Refusal :=
  .next (timed (fun s => if maySleep s then s.control.idleDue else none) enterSleep s)

/-- SERVICE_INACTIVITY_EXPIRY (12 R197). -/
def execServiceInactivityExpiry (s : State) : Host.Outcome State Fault Refusal :=
  .next (timed (fun s => s.control.serviceDue) exitService s)

/-- When an open wake window that has not yet run out does (12 R200). -/
def wakeDeadline (s : State) : Option Nat :=
  match s.control.wake with
  | some w => if w.expired then none else some w.due
  | none => none

/-- WAKE_WINDOW_EXPIRY (12 R200). -/
def execWakeWindowExpiry (s : State) : Host.Outcome State Fault Refusal := .next (timed wakeDeadline expireWake s)

end Sys2Proof.Machine
end

