-- ==== Sys2Proof/Machine/Clock.lean ====
section
/-! DEFINITION. What the part does when no command waits: the events of its own that fall due within one tick are put
into the queue, and if there are none the clock moves on by one tick (log 4). -/

namespace Sys2Proof.Machine

/-- An event and the time at which it is due. -/
structure DueEvent where
  at_ : Nat
  command : Instr
deriving DecidableEq, Repr

/-- An event that is due at a time at or before `limit`. -/
def dueIf (limit : Nat) (due : Option Nat) (c : Instr) : List DueEvent :=
  match due with
  | some t => if t ≤ limit then [⟨t, c⟩] else []
  | none => []

/-- The output has something to do at its next boundary. -/
def boundaryWanted (o : Output) (s : State) : Bool :=
  s.drive[o].buffered.isSome || s.drive[o].pendingDir.isSome || s.drive[o].pullInAt.isSome

def boundaryDue (o : Output) (s : State) : Option Nat :=
  if boundaryWanted o s then some (nextBoundary o s) else none

/-- The part's own events that fall due by a time; frames, replies' ends and memory acknowledgements come from
outside. -/
def dueEvents (limit : Nat) (s : State) : List DueEvent :=
  allOutputs.flatMap (fun o => dueIf limit (boundaryDue o s) (.periodBoundary o))
  ++ allHalls.flatMap (fun p => dueIf limit (coastDue p s) (.coastWindowClose p))
  ++ allHalls.flatMap (fun p => dueIf limit (stallDue p s) (.stallReport p))
  ++ dueIf limit (noPulseDue s) .noPulse
  ++ allLinks.flatMap (fun l => dueIf limit (gapDue l s) (.gapTimerExpiry l))
  ++ allLinks.flatMap (fun l => dueIf limit (quietDue l s) (.quietTimerExpiry l))
  ++ allChannels.flatMap (fun c => dueIf limit (keepDeadline c s) (.keepDeadlineExpiry c))
  ++ allChannels.flatMap (fun c => dueIf limit (runDeadline c s) (.runLimitExpiry c))
  ++ allChannels.flatMap (fun c => dueIf limit (waitDeadline (.session c) s) (.waitLimitExpiry (.session c)))
  ++ dueIf limit (waitDeadline .pump s) (.waitLimitExpiry .pump)
  ++ dueIf limit s.interlock.staleDue .stalenessExpiry
  ++ dueIf limit (settleDeadline s) .settleTimerExpiry
  ++ allSlides.flatMap (fun i => dueIf limit (seatDue i s) (.seatTimerExpiry i))
  ++ dueIf limit s.wind.lockoutDue .lockoutExpiry
  ++ dueIf limit (if maySleep s then s.control.idleDue else none) .idleTimerExpiry
  ++ dueIf limit s.control.serviceDue .serviceInactivityExpiry
  ++ dueIf limit (wakeDeadline s) .wakeWindowExpiry
  ++ dueIf limit (if reloadDue s then some s.now else none) .fullResetReload

/-- An event takes its place among events in the order of their times. -/
def insertDue (e : DueEvent) : List DueEvent → List DueEvent
  | [] => [e]
  | x :: rest => if e.at_ < x.at_ then e :: x :: rest else x :: insertDue e rest

def sortDue (l : List DueEvent) : List DueEvent := l.foldl (fun acc e => insertDue e acc) []

/-- The empty queue: own events that are due by one tick from now, or one tick of the clock. -/
def tick (s : State) : State :=
  let due := if s.powered then dueEvents (s.now + Config.tick) s else []
  match sortDue due with
  | [] => { s with now := s.now + Config.tick }
  | l => { s with pending := l.map (·.command) }

end Sys2Proof.Machine
end

