-- ==== Sys2Proof/Machine/Dispatch.lean ====
section
/-! DEFINITION. One arm per command. -/

namespace Sys2Proof.Machine

def exec (i : Instr) (s : State) : Host.Outcome State Fault Refusal :=
  match i with
  | .powerOn => Sys2Proof.Machine.execPowerOn s
  | .settingsBlockLoaded answers => Sys2Proof.Machine.execSettingsBlockLoaded answers s
  | .postureBlockLoaded answers => Sys2Proof.Machine.execPostureBlockLoaded answers s
  | .linkByte l b stopGood => Sys2Proof.Machine.execLinkByte l b stopGood s
  | .gapTimerExpiry l => Sys2Proof.Machine.execGapTimerExpiry l s
  | .quietTimerExpiry l => Sys2Proof.Machine.execQuietTimerExpiry l s
  | .replySent l => Sys2Proof.Machine.execReplySent l s
  | .readPosture l page => Sys2Proof.Machine.execReadPosture l page s
  | .keep l => Sys2Proof.Machine.execKeep l s
  | .stop l scope => Sys2Proof.Machine.execStop l scope s
  | .move l c d k target => Sys2Proof.Machine.execMove l c d k target s
  | .level l => Sys2Proof.Machine.execLevel l s
  | .jacksUp l => Sys2Proof.Machine.execJacksUp l s
  | .setLevelTarget l pitch roll => Sys2Proof.Machine.execSetLevelTarget l pitch roll s
  | .runProgram l number => Sys2Proof.Machine.execRunProgram l number s
  | .resume l => Sys2Proof.Machine.execResume l s
  | .skipStep l => Sys2Proof.Machine.execSkipStep l s
  | .abort l => Sys2Proof.Machine.execAbort l s
  | .readEvents l => Sys2Proof.Machine.execReadEvents l s
  | .setEventEnable l set => Sys2Proof.Machine.execSetEventEnable l set s
  | .readFaults l => Sys2Proof.Machine.execReadFaults l s
  | .clearFault l h => Sys2Proof.Machine.execClearFault l h s
  | .readLinkStatus l => Sys2Proof.Machine.execReadLinkStatus l s
  | .chassisStatus l ignition brake gear speed engine => Sys2Proof.Machine.execChassisStatus l ignition brake gear speed engine s
  | .modeSleep l => Sys2Proof.Machine.execModeSleep l s
  | .sleepReplyEnd l => Sys2Proof.Machine.execSleepReplyEnd l s
  | .serviceEnter l => Sys2Proof.Machine.execServiceEnter l s
  | .serviceExit l => Sys2Proof.Machine.execServiceExit l s
  | .motionReset l => Sys2Proof.Machine.execMotionReset l s
  | .fullReset l => Sys2Proof.Machine.execFullReset l s
  | .fullResetReplyEnd l => Sys2Proof.Machine.execFullResetReplyEnd l s
  | .fullResetReload => Sys2Proof.Machine.execFullResetReload s
  | .readSetting l number => Sys2Proof.Machine.execReadSetting l number s
  | .writeSetting l number value => Sys2Proof.Machine.execWriteSetting l number value s
  | .captureLevel l => Sys2Proof.Machine.execCaptureLevel l s
  | .samplerFrameComplete raw => Sys2Proof.Machine.execSamplerFrameComplete raw s
  | .outOfWindowLimit slot => Sys2Proof.Machine.execOutOfWindowLimit slot s
  | .exceedanceTrip slot => Sys2Proof.Machine.execExceedanceTrip slot s
  | .hangingCountReached j => Sys2Proof.Machine.execHangingCountReached j s
  | .supplyDwellComplete d => Sys2Proof.Machine.execSupplyDwellComplete d s
  | .driftCounterTrip => Sys2Proof.Machine.execDriftCounterTrip s
  | .periodBoundary o => Sys2Proof.Machine.execPeriodBoundary o s
  | .pullInEnd o => Sys2Proof.Machine.execPullInEnd o s
  | .hallEdge p => Sys2Proof.Machine.execHallEdge p s
  | .strayTallyLimit p => Sys2Proof.Machine.execStrayTallyLimit p s
  | .coastWindowClose p => Sys2Proof.Machine.execCoastWindowClose p s
  | .stallReport p => Sys2Proof.Machine.execStallReport p s
  | .anemometerEdge => Sys2Proof.Machine.execAnemometerEdge s
  | .noPulse => Sys2Proof.Machine.execNoPulse s
  | .windTrip => Sys2Proof.Machine.execWindTrip s
  | .keepDeadlineExpiry c => Sys2Proof.Machine.execKeepDeadlineExpiry c s
  | .runLimitExpiry c => Sys2Proof.Machine.execRunLimitExpiry c s
  | .waitLimitExpiry e => Sys2Proof.Machine.execWaitLimitExpiry e s
  | .stalenessExpiry => Sys2Proof.Machine.execStalenessExpiry s
  | .settleTimerExpiry => Sys2Proof.Machine.execSettleTimerExpiry s
  | .seatTimerExpiry k => Sys2Proof.Machine.execSeatTimerExpiry k s
  | .lockoutExpiry => Sys2Proof.Machine.execLockoutExpiry s
  | .idleTimerExpiry => Sys2Proof.Machine.execIdleTimerExpiry s
  | .serviceInactivityExpiry => Sys2Proof.Machine.execServiceInactivityExpiry s
  | .wakeWindowExpiry => Sys2Proof.Machine.execWakeWindowExpiry s
  | .memoryWriteDone => Sys2Proof.Machine.execMemoryWriteDone s
  | .memoryWriteAbandoned => Sys2Proof.Machine.execMemoryWriteAbandoned s
  | .powerLoss => Sys2Proof.Machine.execPowerLoss s

end Sys2Proof.Machine
end

