-- ==== Sys2Proof/Safety.lean ====
section
/-! DEFINITION. What a sound state is, in the terms the claims use: the conditions that the manual states for the whole
part and that every command keeps. -/

namespace Sys2Proof.Machine

/-- 11 R190: each attention line is asserted exactly when the pending set and the enable set share a member. -/
def LinesAgree (s : State) : Prop :=
  ∀ l : Link, s.events[l].line = ((s.events[l].pending &&& s.events[l].enable) != 0)

/-- 05 R88: the alarm output stands as the drive-away field does. -/
def AlarmFollows (s : State) : Prop := s.interlock.alarm = s.interlock.driveAway

/-- 05 R87, R88: the drive-away field says whether the condition holds, and the alarm output follows it. A motion reset
alone may leave it otherwise, until it is evaluated again (05 R90; log 64). -/
def DriveAwayAgrees (s : State) : Prop := s.interlock.driveAway = driveAwayHolds s ∧ AlarmFollows s

/-- 12 R195, R201: at most one pending write for each block, and none while the memory is idle; the memory's bytes stand in
their canonical form, within its 2048 addresses. -/
def WritesOrdered (s : State) : Prop :=
  s.memory.pendingWrites.Nodup ∧ (s.memory.writing = none → s.memory.pendingWrites = [])
  ∧ Memory.wf s.memory.bytes = true

/-- 06 R95, R100: the held sum does not exceed the budget of the present supply state, and the queue holds at most 8
entries. -/
def SupplyKept (s : State) : Prop := heldSum s ≤ budget s ∧ s.supply.queue.length ≤ Config.queueMax

/-- 04 R54: each channel belongs to at most one session. -/
def OneSessionEach (s : State) : Prop := s.sessions.Pairwise fun x y => x.cover.meets y.cover = false

/-- 05 R85: while the chassis reports a road speed above zero, no session exists other than awning retraction. -/
def TravelStill (s : State) : Prop :=
  chassisCondition s = .travel → ∀ x ∈ s.sessions, x.motion.awningRetract = true

/-- What every command keeps. -/
structure Sound (s : State) : Prop where
  lines : LinesAgree s
  alarm : AlarmFollows s
  writes : WritesOrdered s
  supply : SupplyKept s
  sessions : OneSessionEach s
  travel : TravelStill s

/-! ### Between events -/

/-- A powered part between events: nothing is left to hand on. -/
def Quiet (s : State) : Prop := s.powered = true ∧ s.work = {}

/-- A quiet part in READY or SERVICE that hears a request on a link: the receiver is neither sending nor discarding. -/
def Hears (l : Link) (s : State) : Prop :=
  Quiet s ∧ (s.control.mode = .ready ∨ s.control.mode = .service)
    ∧ (s.links[l].receiver = .hunt ∨ ∃ taken, s.links[l].receiver = .frame taken)

/-- A quiet part whose idle timer runs exactly when its conditions hold (12 R199), and whose wake window, if one is
open, has not run out (12 R200). -/
def Settled (s : State) : Prop :=
  Quiet s ∧ s.control.idleDue.isSome = idleHolds s ∧ ∀ w, s.control.wake = some w → w.expired = false

/-- No motion: no session, no current held or waited for, no program run, no relevel put off. -/
def AtRest (s : State) : Prop :=
  s.sessions = [] ∧ s.supply.allotments = [] ∧ s.supply.queue = [] ∧ s.program.run = none ∧ s.level.deferred = false

/-! ### What a request leaves (11 R182, 12 R197, R199, R200) -/

/-- The Mode Controller after a taken request other than CHASSIS_STATUS that changes neither the mode nor what the idle
timer depends on: the owner's request restarts the Service inactivity timer, every request restarts the idle timer, and
an open wake window is closed with its mark set. -/
def heardControl (l : Link) (s : State) : ModeUnit :=
  { s.control with
    serviceDue := if s.control.mode = .service ∧ s.control.serviceOwner = some l
      then some (s.now + Config.serviceTime) else s.control.serviceDue
    idleDue := if idleHolds s then some (s.now + Config.idleTime) else none
    wakeFrameMark := s.control.wakeFrameMark || s.control.wake.isSome
    wake := none }

/-- A link's record while its reply is sent: the receiver stands in REPLY, and the reply is a frame of the code plus
0x80 and the payload (11 R182). -/
def replying (code : Byte) (rep : Reply) (r : LinkRec) : LinkRec :=
  { r with receiver := .reply false rep.after, lastReply := frameBytes (code + 0x80) rep.payload }

/-- A taken request that changes nothing but its link's receiver and the Mode Controller's timers. -/
def answered (l : Link) (code : Byte) (rep : Reply) (s : State) : State :=
  { s with control := heardControl l s, links := upd s.links l (replying code rep) }

/-- The event sets after a post (11 R188), each line judged again (11 R190). -/
def posted (e : Event) (s : State) : Vector EventBox 4 :=
  updAll s.events fun _ b =>
    { b with pending := b.pending ||| e.mask, line := ((b.pending ||| e.mask) &&& b.enable) != 0 }

/-- The image that a write of a block captures from a state (12 R201). -/
def imageOf (b : Block) (s : State) : WriteImage :=
  match b with
  | .settings => .settings s.settings
  | .posture => .posture (postureImage s)

/-- The write queue after a store of a block is asked (12 R201). -/
def storeAsked (b : Block) (s : State) : MemoryUnit :=
  if s.memory.writing = none ∧ s.memory.pendingWrites = [] then { s.memory with writing := some (imageOf b s) }
  else if b ∈ s.memory.pendingWrites then s.memory
  else { s.memory with pendingWrites := s.memory.pendingWrites ++ [b] }

/-- The queue and the write in progress after a write has ended: the oldest pending write begins (12 R201). -/
def nextWriting (s : State) : MemoryUnit :=
  { s.memory with
    writing := s.memory.pendingWrites.head?.map fun b => imageOf b s
    pendingWrites := s.memory.pendingWrites.tail }

/-! ### What a block of the serial memory can hold (12 R195) -/

/-- The numbers of a posture fit their two bytes. -/
def PostureImage.Fits (x : PostureImage) : Prop :=
  (∀ i : Slide, x.slides[i].front < 65536 ∧ x.slides[i].rear < 65536) ∧ (∀ a : Awning, x.awnings[a].count < 65536)
  ∧ ∀ j : Jack, x.jacks[j].stroke < 65536

/-- The numbers of a slot record fit their fields; one without a counter has the default one. -/
structure SlotSettings.Fits (slot : Slot) (c : SlotSettings) : Prop where
  conversions : c.conversions = 4 ∨ c.conversions = 8 ∨ c.conversions = 16 ∨ c.conversions = 32
  gain : c.gain < 65536
  offset : -32768 ≤ c.offset ∧ c.offset < 32768
  windowMin : -32768 ≤ c.windowMin ∧ c.windowMin < 32768
  windowMax : -32768 ≤ c.windowMax ∧ c.windowMax < 32768
  threshold : -32768 ≤ c.threshold ∧ c.threshold < 32768
  release : -32768 ≤ c.release ∧ c.release < 32768
  tripCount : c.tripCount < 256
  plain : hasExceedance slot = false → c.threshold = 0 ∧ c.release = 0 ∧ c.tripCount = 1

/-- The numbers of the settings fit their fields. -/
structure Settings.Fits (x : Settings) : Prop where
  pumpAmps : x.pumpAmps < 256
  slideAmps : x.slideAmps < 256
  awningAmps : x.awningAmps < 256
  keepWindow : x.keepWindow < 65536
  tolerance : x.tolerance < 256
  jackX : ∀ j : Jack, -32768 ≤ x.jackX[j] ∧ x.jackX[j] < 32768
  jackY : ∀ j : Jack, -32768 ≤ x.jackY[j] ∧ x.jackY[j] < 32768
  maxStroke : ∀ j : Jack, x.maxStroke[j] < 65536
  slideFull : ∀ i : Slide, x.slideFull[i] < 65536
  awningFull : ∀ a : Awning, x.awningFull[a] < 65536
  clearance : ∀ a : Awning, x.clearance[a] < 65536
  windTripCount : x.windTripCount < 256
  slots : ∀ slot : Slot, (x.slots[slot]).Fits slot

/-- The memory after a finished write of a block: the block begins with the image's bytes and passes its CRC, and no byte
outside it has changed. -/
def BlockWritten (b : Block) (values : List Byte) (old new : List Host.Cell) : Prop :=
  (b.bytes new).take values.length = values ∧ b.passes new = true
  ∧ ∀ a : Nat, a < b.place.1 ∨ b.place.1 + b.place.2 ≤ a → readByte a new = readByte a old

/-- The memory after a write of a block was cut short: the block fails its CRC, and no byte outside it has changed. -/
def CutShort (b : Block) (old new : List Host.Cell) : Prop :=
  b.passes new = false
  ∧ ∀ a : Nat, a < b.place.1 ∨ b.place.1 + b.place.2 ≤ a → readByte a new = readByte a old

/-- A value moved by an offset's change and limited to the tilt range (02 R33). -/
def moved (by_ v : Int) : Int := if by_ = 0 then v else max (-1500) (min 1500 (v + by_))

/-- The sampler after the tilt slots' offsets change from those of `old` to those of `new` (02 R33). -/
def tiltMoved (old new : Settings) (x : Sampler) : Sampler :=
  let p := new.slots[(0 : Slot)].offset - old.slots[(0 : Slot)].offset
  let r := new.slots[(1 : Slot)].offset - old.slots[(1 : Slot)].offset
  { x with
    slots := upd (upd x.slots 0 fun e => { e with lastValid := moved p e.lastValid }) 1
      fun e => { e with lastValid := moved r e.lastValid }
    pitch := { x.pitch with value := moved p x.pitch.value }
    roll := { x.roll with value := moved r x.roll.value } }

/-- Every output low, nothing buffered and every direction neutral (03 R45). -/
def OutputsOff (s : State) : Prop :=
  ∀ o : Output, s.drive[o].applied = 0 ∧ s.drive[o].buffered = none ∧ s.drive[o].dir = none
    ∧ s.drive[o].pendingDir = none ∧ s.drive[o].pullInAt = none

/-! ### Sleep entry -/

/-- `t` is `s` after Sleep entry (12 R199, 02 R35, 03 R45, R52, 06 R93, 07 R124, 09 R160, 11 R191): the mode and its
event, the posture store, the stopped sampler, the outputs, the pulse inputs, the receivers and the counts; nothing else
changes. -/
structure Slept (s t : State) : Prop where
  control : t.control = { s.control with mode := .sleep, idleDue := none, wake := none }
  events : t.events = posted .mode s
  memory : t.memory = storeAsked .posture s
  sampler : t.sampler = { s.sampler with
    running := false, slots := updAll s.sampler.slots fun _ r => { r with outCount := 0 } }
  drive : ∀ o : Output, t.drive[o] = { s.drive[o] with
    applied := 0, buffered := none, dir := none, pendingDir := none, pullInAt := none }
  slides : ∀ i : Slide, t.slides[i] = { s.slides[i] with lastFront := 0, lastRear := 0 }
  inputs : ∀ p : Hall, t.pulse.inputs[p] = { s.pulse.inputs[p] with coast := none, stallStart := none }
  off : t.pulse.offSince = some s.now
  watch : (∃ a : Awning, s.awnings[a].state ≠ .stowed) → t.pulse.wind = s.pulse.wind ∧ t.wind = s.wind
  unwatched : (∀ a : Awning, s.awnings[a].state = .stowed) →
    t.pulse.wind = { on := false, lastEdge := none, period := none, quiet := true }
      ∧ t.wind = { s.wind with speed := 0, gusts := 0 }
  links : ∀ l : Link, t.links[l] = { s.links[l] with receiver := s.links[l].receiver.atSleep }
  counts : t.supply = { s.supply with fallCount := 0, riseCount := 0 } ∧ t.level = { s.level with drift := 0 }
  rest : t = { s with
    control := t.control, events := t.events, memory := t.memory, sampler := t.sampler, drive := t.drive,
    slides := t.slides, pulse := t.pulse, wind := t.wind, links := t.links, supply := t.supply, level := t.level }

/-! ### Motion begun and ended, as several statements speak of it -/

/-- The record of a link's MOVE without a target (04 R54, R59, R68): RUNNING from now, or WAITING. -/
def linkSession (c : Channel) (l : Link) (d : Dir) (kind : Kind) (limit : Nat) (creep running : Bool) (s : State) :
    Session where
  cover := .one c
  op := .move
  owner := .link l
  origin := .link
  kind := kind
  dir := some d
  target := none
  creep := creep
  jogged := decide (kind = .jog)
  phase := if running then .running else .waiting
  keepDue := if kind = .oneTouch then none else some (s.now + ms s.settings.keepWindow)
  runLimit := limit
  runLeft := limit
  runFrom := if running then some s.now else none
  pendingEnd := none

/-- A session after its owner's MOVE the other way without a target (04 R62): a counting run time restarts. -/
def reversed (d : Dir) (kind : Kind) (s : State) (x : Session) : Session :=
  { x with
    dir := some d, kind := kind, target := none, jogged := x.jogged || decide (kind = .jog)
    keepDue := if kind = .oneTouch then none else some (s.now + ms s.settings.keepWindow)
    runLeft := if x.phase = .running then x.runLimit else x.runLeft
    runFrom := if x.phase = .running then some s.now else x.runFrom }

/-- A session stopped softly: in STOPPING, with the code it will end with and its run time standing (04 R67, R68). -/
def stoppingWith (code : EndCode) (now : Nat) (x : Session) : Session :=
  { x with phase := .stopping, pendingEnd := some code, runLeft := x.timeLeft now, runFrom := none }

/-- An output given a direction and a duty (03 R39, R41). -/
def given (d : Dir) (duty : Nat) (o : DriveOutput) : DriveOutput :=
  { o with buffered := some duty, pendingDir := if o.dir = some d then none else some d }

/-- An output forced to zero (03 R40). -/
def forced (o : DriveOutput) : DriveOutput := { o with applied := 0, buffered := none, pullInAt := none }

/-- A pulse input whose motor has been forced to zero: its stall timing ends, and its coast window opens in the direction
driven until then (03 R42, R48, R50). -/
def coasting (o : DriveOutput) (now : Nat) (h : HallInput) : HallInput :=
  if o.applied = 0 then h
  else { h with
    stallStart := none
    coast := match o.dir with
      | some d => some ⟨d, now + ms 200⟩
      | none => h.coast }

/-- Drive-away judged with a channel that is not STOWED (05 R87, R88): the chassis alone decides. -/
def outAway (s : State) : State :=
  { s with
    interlock := { s.interlock with driveAway := chassisMoving s, alarm := chassisMoving s }
    events := if chassisMoving s = true ∧ s.interlock.driveAway = false then posted .driveAway s else s.events }

/-- `t` has the awnings of `out`, none of them STOWED, retracting for an internal cause (05 R89, 09 R149, R158, 06 R99): a
session of the owner INTERNAL each, the reserve's 9 A, the direction and the duty written, nothing else driven. -/
structure Retracts (origin : Origin) (out : List Awning) (s t : State) : Prop where
  sessions : t.sessions = out.map fun a =>
    { cover := .one (.awning a), op := .move, owner := .internal, origin := origin, kind := .oneTouch
      dir := some .inward, target := none, creep := (s.awnings[a].fault.kind).isSome, jogged := false, phase := .running
      keepDue := none, runLimit := seconds 60, runLeft := seconds 60, runFrom := some s.now, pendingEnd := none }
  supply : t.supply = { s.supply with allotments := out.map fun a => ⟨.session (.one (.awning a)), 9, none⟩ }
  awnings : ∀ a : Awning, t.awnings[a] = if a ∈ out
    then { s.awnings[a] with state := .retracting, wasStowed := false, seatedHome := false } else s.awnings[a]
  drive : ∀ (a : Awning) (o : Output), o = awningOutput a → t.drive[o] = if a ∈ out
    then given .inward (if s.awnings[a].fault.kind = none ∧ s.awnings[a].homed = true then 800 else 300) s.drive[o]
    else s.drive[o]
  others : ∀ o : Output, (∀ a : Awning, o ≠ awningOutput a) → t.drive[o] = s.drive[o]

/-- `t` is `s` with all motion ended by a reset (04 R72, 01 R12, 03 R45, R53, 06 R105, 07 R130, 08 R147, 10 R178).
`keepLast`: the last driven directions stay. Counts, homed flags, stray tallies and fault records are kept. -/
structure MotionEnded (keepLast : Bool) (s t : State) : Prop where
  sessions : t.sessions = []
  drive : ∀ o : Output, t.drive[o] = { forced s.drive[o] with
    dir := none, pendingDir := none, lastDir := if keepLast then s.drive[o].lastDir else none }
  pulse : t.pulse = { s.pulse with inputs := t.pulse.inputs }
  inputs : ∀ p : Hall, t.pulse.inputs[p] = coasting s.drive[servingOutput p] s.now s.pulse.inputs[p]
  jacks : ∀ j : Jack, t.jacks[j] = { s.jacks[j] with
    state := if sessionOn (.jack j) s = none then s.jacks[j].state else jackRest j s
    lastEnd := t.jacks[j].lastEnd }
  slides : ∀ i : Slide, t.slides[i] = { s.slides[i] with
    state := if sessionOn (.slide i) s = none then s.slides[i].state else slideRest i s
    lastEnd := t.slides[i].lastEnd, seating := .none, lastFront := 0, lastRear := 0, lastDir := none }
  awnings : ∀ a : Awning, t.awnings[a] = { s.awnings[a] with
    state := if sessionOn (.awning a) s = none then s.awnings[a].state else awningRest a s
    lastEnd := t.awnings[a].lastEnd }
  ended : OneSessionEach s → ∀ x ∈ s.sessions, ∀ c ∈ x.cover.channels,
    lastEndOf c t = some ⟨.reset, none, x.owner, x.op⟩
  unended : ∀ c : Channel, sessionOn c s = none → lastEndOf c t = lastEndOf c s
  supply : t.supply = { s.supply with allotments := [], queue := [] }
  level : t.level = { s.level with
    state := .idle
    outcome := if ∃ x ∈ s.sessions, x.op = .level ∨ x.op = .touchdown then .stopped else s.level.outcome
    plan := Vector.replicate 6 {}, hangCount := Vector.replicate 6 0, hanging := Vector.replicate 6 false
    settleDue := none, drift := 0, deferred := false }
  program : t.program = if s.program.run = none then s.program else ⟨none, .reset⟩
  interlock : t.interlock = { s.interlock with driveAway := t.interlock.driveAway, alarm := t.interlock.alarm }
  told : s.sessions ≠ [] → ∀ k : Link, (t.events[k].pending).getLsbD 1 = true

/-! ### Posture pages (11 section 11.8) -/

/-- Bits `hi` to `lo` of the record in reply payload bytes `first` to `last` hold a value, cut to the field's width. Offset
0 is the status, which the 47 bytes of a page do not hold. -/
def shows (page : List Byte) (first last hi lo v : Nat) : Prop :=
  natOfBytes ((page.drop (first - 1)).take (last + 1 - first)) / 2 ^ lo % 2 ^ (hi + 1 - lo) = v % 2 ^ (hi + 1 - lo)

/-- The codes of 11 section 11.8, Channel records, none for a channel without a session or last end. -/
def ownerNumber : Option Owner → Nat
  | none => 0
  | some (.link l) => l.val + 1
  | some .internal => 5

def phaseNumber : Option Phase → Nat
  | none => 0
  | some .waiting => 1
  | some .running => 2
  | some .stopping => 3

def kindNumber : Option Kind → Nat
  | none => 0
  | some .hold => 0
  | some .oneTouch => 1
  | some .jog => 2

def dirNumber : Option Dir → Nat
  | none => 0
  | some .outward => 0
  | some .inward => 1

def endNumber : Option LastEnd → Nat
  | none => 0
  | some x => match x.code with
    | .done => 1 | .stopped => 2 | .keepLost => 3 | .fault => 4 | .noSupply => 5 | .timeout => 6 | .reset => 7
    | .interlock => 16 + (match x.reason with | some r => r.code | none => 0)

def ownerShown (c : Channel) (s : State) : Nat := ownerNumber ((sessionOn c s).map (·.owner))
def phaseShown (c : Channel) (s : State) : Nat := phaseNumber ((sessionOn c s).map (·.phase))
def kindShown (c : Channel) (s : State) : Nat := kindNumber ((sessionOn c s).map (·.kind))
def dirShown (c : Channel) (s : State) : Nat := dirNumber ((sessionOn c s).bind (·.dir))
def lastEndShown (c : Channel) (s : State) : Nat := endNumber (lastEndOf c s)
def lastOwnerShown (c : Channel) (s : State) : Nat := ownerNumber ((lastEndOf c s).map (·.owner))

/-- The place of the first queue entry that a holder stands in, 1 the head, 0 none. -/
structure ShowsPlace (page : List Byte) (first last hi lo : Nat) (holds : Holder → Bool) (s : State) : Prop where
  queued : ∀ (n : Nat) (q : QueueEntry), s.supply.queue[n]? = some q → holds q.holder = true →
    (∀ (m : Nat) (r : QueueEntry), m < n → s.supply.queue[m]? = some r → holds r.holder = false) →
    shows page first last hi lo (n + 1)
  unqueued : (∀ q ∈ s.supply.queue, holds q.holder = false) → shows page first last hi lo 0

/-- The low 34 bits of a slide's or an awning's record. -/
structure ShowsMotion (page : List Byte) (first last : Nat) (c : Channel) (s : State) : Prop where
  phase : shows page first last 33 32 (phaseShown c s)
  kind : shows page first last 31 30 (kindShown c s)
  dir : shows page first last 29 29 (dirShown c s)
  place : ShowsPlace page first last 28 25 (fun h => decide (h = .session (.one c))) s
  target : shows page first last 24 10 (((sessionOn c s).bind (·.target)).getD 32767)
  lastEnd : shows page first last 9 5 (lastEndShown c s)
  lastOwner : shows page first last 4 2 (lastOwnerShown c s)
  unnamed : shows page first last 1 0 0

/-- Page 0 from offset 3 on. -/
structure PageZeroShown (page : List Byte) (s : State) : Prop where
  present : shows page 3 4 15 15 (if s.interlock.record = none then 0 else 1)
  defaulted : shows page 3 4 14 14 (if s.control.settingsDefaulted then 1 else 0)
  runKeep : shows page 3 4 13 13 (match s.program.run with
    | some r => if r.keepDue ≤ s.now then 1 else 0
    | none => 0)
  speed : shows page 3 4 12 0 (((s.interlock.record.map (·.speed)).getD 0) % 2048)
  pitch : shows page 5 7 23 12 (s.sampler.pitch.value % 4096).toNat
  roll : shows page 5 7 11 0 (s.sampler.roll.value % 4096).toNat
  held : shows page 8 8 7 0 (heldSum s)
  pump : ShowsPlace page 9 9 7 4 Holder.isPump s
  level : shows page 9 9 3 0 (2 * s.level.state.code)
  jacks : ∀ j : Jack,
    let first := 10 + 4 * j.val
    shows page first (first + 3) 31 29 s.jacks[j].state.code
    ∧ shows page first (first + 3) 28 26 (ownerShown (.jack j) s)
    ∧ shows page first (first + 3) 25 14 (jackStroke j s)
    ∧ shows page first (first + 3) 13 12 (phaseShown (.jack j) s)
    ∧ shows page first (first + 3) 11 10 (kindShown (.jack j) s)
    ∧ shows page first (first + 3) 9 9 (dirShown (.jack j) s)
    ∧ shows page first (first + 3) 8 4 (lastEndShown (.jack j) s)
    ∧ shows page first (first + 3) 3 1 (lastOwnerShown (.jack j) s)
    ∧ shows page first (first + 3) 0 0 0
  awnings : ∀ a : Awning,
    let first := 34 + 7 * a.val
    shows page first (first + 6) 55 53 s.awnings[a].state.code
    ∧ shows page first (first + 6) 52 52 (if s.awnings[a].homed then 1 else 0)
    ∧ shows page first (first + 6) 51 49 (ownerShown (.awning a) s)
    ∧ shows page first (first + 6) 48 34 (awningPosition a s)
    ∧ ShowsMotion page first (first + 6) (.awning a) s

/-- The run's fields on page 1, for a run whose current step stands at a chain position: the first that is neither DONE
nor SKIPPED. -/
structure RunShown (page : List Byte) (r : RunRecord) (pos : Nat) (x : RunStep) : Prop where
  passed : ∀ n : Nat, n < 16 → shows page 42 43 n n
    (if n < pos ∧ (r.steps[n]?).map (·.status) = some .skipped then 1 else 0)
  current : shows page 44 44 7 4 pos
  status : shows page 44 44 3 0 (2 * x.status.code)
  next : ∀ y : RunStep, r.steps[pos + 1]? = some y → shows page 45 45 7 5 y.status.code

/-- Page 1. -/
structure PageOneShown (page : List Byte) (s : State) : Prop where
  slides : ∀ i : Slide,
    let first := 1 + 8 * i.val
    shows page first (first + 7) 63 61 s.slides[i].state.code
    ∧ shows page first (first + 7) 60 60 (if s.slides[i].homed then 1 else 0)
    ∧ shows page first (first + 7) 59 57 (ownerShown (.slide i) s)
    ∧ shows page first (first + 7) 56 42 (slidePosition i s)
    ∧ shows page first (first + 7) 41 34 (max (-128) (min 127 (slideSkew i s)) % 256).toNat
    ∧ ShowsMotion page first (first + 7) (.slide i) s
  outcome : shows page 33 33 7 5 s.level.outcome.code
  passes : shows page 33 33 4 2 s.level.passes
  clamped : shows page 33 33 1 0 (if s.level.clamped then 2 else 0)
  residualPitch : shows page 34 34 7 0 (max (-128) (min 127 s.level.residualPitch) % 256).toNat
  residualRoll : shows page 35 35 7 0 (max (-128) (min 127 s.level.residualRoll) % 256).toNat
  drift : shows page 36 38 23 15 s.level.drift
  wind : shows page 36 38 14 5 s.wind.speed
  gusts : shows page 36 38 4 0 s.wind.gusts
  lockout : shows page 39 39 7 0 (match s.wind.lockoutDue with
    | some due => (due - s.now + (seconds 10 - 1)) / seconds 10
    | none => 0)
  lastOutcome : shows page 40 40 1 0 s.program.lastOutcome.code
  noRun : s.program.run = none → shows page 40 40 7 2 0 ∧ shows page 41 45 39 0 0
  run : ∀ r : RunRecord, s.program.run = some r →
    shows page 40 40 7 6 (if r.suspended then 2 else 1)
    ∧ shows page 40 40 5 4 r.program.val ∧ shows page 40 40 3 2 r.owner.val
    ∧ shows page 41 41 7 0 ((r.reason.map SuspendReason.code).getD 0)
    ∧ shows page 45 45 4 0 (if r.pair = none then 0 else 8)
    ∧ ∀ (pos : Nat) (x : RunStep), r.steps[pos]? = some x → x.status ≠ .done → x.status ≠ .skipped →
      (∀ (n : Nat) (y : RunStep), n < pos → r.steps[n]? = some y → y.status = .done ∨ y.status = .skipped) →
      RunShown page r pos x
  operations : ∀ j : Jack, shows page 46 47 (15 - 2 * j.val) (14 - 2 * j.val)
    ((s.jacks[j].lastEnd.map (·.op.code)).getD 0)
  unnamed : shows page 46 47 3 0 0

/-! ### Slides started (04 R59, 05 R76 to R83, 06 R97, 08 R133 to R137) -/

/-- The checks of a slide's JOG: inward it needs a chassis that is not travelling; outward it needs a parked chassis,
settings that are not defaults, no fault, and support if it is flagged; either way the awnings over it are homed, within
their clearance, and without a session. -/
def SlideMayJog (i : Slide) (d : Dir) (s : State) : Prop :=
  (d = .inward → chassisCondition s ≠ .travel)
  ∧ (d = .outward → chassisCondition s = .parked ∧ s.control.settingsDefaulted = false
    ∧ s.slides[i].fault.kind = none ∧ (s.settings.support[i] = true → supported s = true))
  ∧ ∀ a : Awning, inConflict i a s = true → s.awnings[a].homed = true
    ∧ awningPosition a s ≤ s.settings.clearance[a] ∧ sessionOn (.awning a) s = none

/-- The checks of any other motion of a slide: outward it must also be homed. -/
def SlideMayMove (i : Slide) (d : Dir) (s : State) : Prop :=
  SlideMayJog i d s ∧ (d = .outward → s.slides[i].homed = true)

/-- A slide moved inward under an active fault creeps (01 R18). -/
def creeps (i : Slide) (d : Dir) (s : State) : Bool := decide (d = .inward) && s.slides[i].fault.kind.isSome

/-- The base duty of a slide without a target (08 R134). -/
def plainDuty (i : Slide) (creep : Bool) (s : State) : Nat :=
  if creep = true ∨ s.slides[i].homed = false then 300
  else if slidePosition i s ≤ 400 ∨ s.settings.slideFull[i] ≤ slidePosition i s + 400 then 450 else 850

/-- A slide's moving state. -/
def slideMoves : Dir → SlideState
  | .outward => .movingOut
  | .inward => .movingIn

/-- A slide's record at its start, both motors at one duty (08 R133, R137). -/
def startedSlide (d : Dir) (duty : Nat) (e : SlideEntry) : SlideEntry :=
  { e with
    state := slideMoves d, seating := .none, lastFront := duty, lastRear := duty, lastDir := some d
    wasStowed := decide (e.state = .stowed), seatedHome := false, stalledOut := false }

/-- Both motor outputs of a slide changed alike. -/
def bothMotors (i : Slide) (f : DriveOutput → DriveOutput) (v : Vector DriveOutput 23) : Vector DriveOutput 23 :=
  upd (upd v (frontOutput i) f) (rearOutput i) f

/-- The part with one slide of those at rest started by a session: its amperes from the budget, both motors given the
direction and the duty; a session that is or has been a JOG creeps (08 R135; log 60). -/
def withSlide (i : Slide) (d : Dir) (x : Session) (s : State) : State :=
  let duty := plainDuty i (x.creep || x.jogged) s
  { s with
    sessions := s.sessions ++ [x]
    supply := { s.supply with
      allotments := s.supply.allotments ++ [⟨.session x.cover, s.settings.slideAmps, some s.supply.nextOrder⟩]
      nextOrder := s.supply.nextOrder + 1 }
    slides := upd s.slides i (startedSlide d duty)
    drive := bothMotors i (given d duty) s.drive }

/-- The session of a program's slide step (10 R167). -/
def stepSession (k : StepIndex) (i : Slide) (d : Dir) (owner : Link) (s : State) : Session :=
  { linkSession (.slide i) owner d .hold (seconds 90) (creeps i d s) true s with origin := .step k }

/-- A slide step of the pool that no end skips. -/
def IsSlideStep (k : StepIndex) (i : Slide) (d : Dir) (s : State) : Prop :=
  s.settings.pool[k].kind = (match d with | .outward => .slideOut | .inward => .slideIn)
  ∧ s.settings.pool[k].channel = some (.slide i) ∧ s.settings.pool[k].skipIfDone = false

/-- The supply state allows a pair (10 R176). -/
def PairSupply (s : State) : Prop := s.supply.state = .strong ∨ s.supply.state = .battery

/-! ### Requests as bytes (11 sections 11.1, 11.8) -/

/-- The link, the code and the payload of a request's frame, by the tables of 11 section 11.8; none for a command that
is no request. -/
def requestFrame : Instr → Option (Link × Byte × List Byte)
  | .readPosture l page => some (l, 0x01, [match page with | .zero => 0 | .one => 1])
  | .keep l => some (l, 0x02, [])
  | .stop l (.one c) => some (l, 0x03, [byte c.code])
  | .stop l .all => some (l, 0x03, [0xFF])
  | .move l c d k target =>
    some (l, 0x04,
      [byte c.code, match d with | .outward => 0 | .inward => 1,
       match k with | .default => 0 | .hold => 1 | .oneTouch => 2 | .jog => 3]
      ++ match target with | some w => bytesOf 2 w.toNat | none => [])
  | .level l => some (l, 0x05, [])
  | .jacksUp l => some (l, 0x06, [])
  | .setLevelTarget l pitch roll => some (l, 0x07, bytesOf 2 pitch.toNat ++ bytesOf 2 roll.toNat)
  | .runProgram l number => some (l, 0x08, [number])
  | .resume l => some (l, 0x09, [])
  | .skipStep l => some (l, 0x0A, [])
  | .abort l => some (l, 0x0B, [])
  | .readEvents l => some (l, 0x0C, [])
  | .setEventEnable l set => some (l, 0x0D, bytesOf 2 set.toNat)
  | .readFaults l => some (l, 0x0E, [])
  | .clearFault l h => some (l, 0x0F, [byte h.code])
  | .readLinkStatus l => some (l, 0x10, [])
  | .chassisStatus l ignition brake gear speed engine =>
    some (l, 0x11, [ignition, brake, gear] ++ bytesOf 2 speed.toNat ++ [engine])
  | .modeSleep l => some (l, 0x12, [0])
  | .serviceEnter l => some (l, 0x12, [1])
  | .serviceExit l => some (l, 0x12, [2])
  | .motionReset l => some (l, 0x13, [])
  | .fullReset l => some (l, 0x14, [])
  | .readSetting l number => some (l, 0x15, bytesOf 2 number.toNat)
  | .writeSetting l number value => some (l, 0x16, bytesOf 2 number.toNat ++ value)
  | .captureLevel l => some (l, 0x17, [])
  | _ => none

/-- The payload lengths that a request code allows, by the tables of 11 section 11.8; none for a code that is no request.
READ_SETTING and WRITE_SETTING begin with a setting number, and the length behind it is judged after the number. -/
def requestLengths (code : Nat) : Option (List Nat) :=
  if code ∈ [0x02, 0x05, 0x06, 0x09, 0x0A, 0x0B, 0x0C, 0x0E, 0x10, 0x13, 0x14, 0x17] then some [0]
  else if code ∈ [0x01, 0x03, 0x08, 0x0F, 0x12] then some [1]
  else if code = 0x04 then some [3, 5]
  else if code = 0x07 then some [4]
  else if code = 0x0D then some [2]
  else if code = 0x11 then some [6]
  else if code = 0x15 ∨ code = 0x16 then some ((List.range 47).map (· + 2))
  else none

/-- The setting that a READ_SETTING or WRITE_SETTING payload names, the number of bytes behind the number, and how many
there must be. -/
def settingAsked (code : Byte) : List Byte → Option (Option SettingKey × Nat × Nat)
  | hi :: lo :: value =>
    let key := settingKey (BitVec.ofNat 16 (natOfBytes [hi, lo]))
    if code = 0x15 then some (key, value.length, 0)
    else if code = 0x16 then some (key, value.length, (key.map SettingKey.size).getD 0)
    else none
  | _ => none

/-- A channel, direction, kind, page or mode code that its request does not admit. -/
def badCode (code : Byte) (payload : List Byte) : Bool :=
  let channel := fun c : Byte => decide (1 ≤ c.toNat ∧ c.toNat ≤ 12)
  match code.toNat, payload with
  | 0x01, [page] => decide (1 < page.toNat)
  | 0x03, [c] => !channel c && decide (c ≠ 0xFF)
  | 0x04, c :: d :: k :: _ => !channel c || decide (1 < d.toNat) || decide (3 < k.toNat)
  | 0x0F, [c] => !channel c && decide (c ≠ 13)
  | 0x12, [m] => decide (2 < m.toNat)
  | _, _ => false

/-- The status with which the Link Interface itself answers a frame, by the four checks of 11 R183 in their order; none if
the frame passes them. -/
def linkAnswer (code : Byte) (payload : List Byte) (s : State) : Option Status :=
  if s.control.mode = .loading then some .notReady
  else match requestLengths code.toNat with
    | none => some .unknownRequest
    | some lengths =>
      if payload.length ∉ lengths then some .badLength
      else match settingAsked code payload with
        | some (none, _, _) => some .badArg
        | some (some _, length, due) => if length = due then none else some .badLength
        | none => if badCode code payload then some .badArg else none

/-- A command that can complete a MOTION_RESET: the request's row, or the last byte of its frame. -/
def CompletesMotionReset (c : Instr) (s : State) : Prop :=
  match c with
  | .motionReset _ => True
  | .linkByte l b good => good = true ∧ ∃ taken, s.links[l].receiver = .frame taken
    ∧ Config.startByte :: (taken ++ [b]) = frameBytes 0x13 []
  | _ => False

/-- Commands one after another, while each answers a next state. -/
def runAll (cs : List Instr) (s : State) : Host.Outcome State Fault Refusal :=
  cs.foldl (fun o c => match o with | .next t => exec c t | o => o) (.next s)

/-- The bytes of a frame as they reach a link, every stop bit good. -/
def frameCommands (l : Link) (code : Byte) (payload : List Byte) : List Instr :=
  (frameBytes code payload).map fun b => .linkByte l b true

end Sys2Proof.Machine
end

