-- ==== Sys2Proof/Certificates/Slice0/Obligations.lean ====
section
/-! DEFINITION. The statements for the provers. A statement about a request speaks of a part that hears it (`Hears`); a
statement about another event speaks of a part between events (`Settled`). Where a statement gives the whole next state,
everything it does not name is unchanged. Three choices of the model run through them: a timed event takes place at its
due time, or now if that has passed (log 3); an event whose condition does not stand changes nothing (log 5); a request's
row stands for its whole frame and replaces the bytes that the receiver had taken so far (log 7). A statement that asks
for `DriveAwayAgrees` leaves out one kind of state: what a motion reset that stowed the last channel leaves until drive-away
is evaluated again (log 64). -/

open Sys2Proof Sys2Proof.Machine

/-! ### The machine -/

/-- The command at the front of the queue is run with the rest of the queue. -/
def Obligations.StepRunsFrontCommand : Prop :=
  ∀ (c : Instr) (rest : List Instr) (s : State),
    step { s with pending := c :: rest } = exec c { s with pending := rest }

/-- The model's choice (log 4): on an empty queue the part's own events that fall due within one tick enter the queue in
the order of their times, and if there are none the clock moves on by one tick. -/
def Obligations.EmptyQueueTicks : Prop :=
  ∀ s : State, s.pending = [] →
    ∃ es : List DueEvent,
      es.Perm (if s.powered then dueEvents (s.now + 50) s else [])
      ∧ es.Pairwise (fun a b => a.at_ ≤ b.at_)
      ∧ step s = .next (if es = [] then { s with now := s.now + 50 } else { s with pending := es.map (·.command) })

/-- Every command of the table has its effect in every state: none faults, none is refused. No command touches the
queue, and the clock never goes back. -/
def Obligations.EveryCommandCompletes : Prop :=
  ∀ (c : Instr) (s : State), ∃ t, exec c s = .next t ∧ t.pending = s.pending ∧ s.now ≤ t.now

/-- The part right after power-on, by the reset rules of each chapter: the values the manual gives. That no command waits is
the model's (log 29). -/
def Obligations.ResetIsPowerOn : Prop :=
  Sound State.reset ∧ DriveAwayAgrees State.reset
  ∧ State.reset.control.mode = .loading ∧ State.reset.control.serviceOwner = none
  ∧ State.reset.control.wake = none ∧ State.reset.control.serviceDue = none
  ∧ (∀ l : Link, State.reset.links[l].receiver = .hunt ∧ State.reset.links[l].flags = {}
      ∧ State.reset.links[l].latch = none ∧ State.reset.events[l] = ⟨0x0001, 0x0000, false⟩)
  ∧ (∀ slot : Slot, State.reset.sampler.slots[slot] = ⟨0, false, 0, 0, false⟩)
  ∧ State.reset.sampler.pitch = ⟨0, false⟩ ∧ State.reset.sampler.roll = ⟨0, false⟩
  ∧ OutputsOff State.reset ∧ (∀ o : Output, State.reset.drive[o].lastDir = none)
  ∧ (∀ p : Hall, State.reset.pulse.inputs[p].stray = 0 ∧ State.reset.pulse.inputs[p].coast = none
      ∧ State.reset.pulse.inputs[p].stallStart = none ∧ State.reset.pulse.inputs[p].stallReported = false)
  ∧ State.reset.pulse.wind.lastEdge = none ∧ State.reset.pulse.wind.period = none
  ∧ State.reset.pulse.wind.quiet = false
  ∧ State.reset.sessions = [] ∧ (∀ h : FaultHolder, faultOf h State.reset = {})
  ∧ State.reset.interlock = ⟨none, false, none, false, false⟩ ∧ chassisCondition State.reset = .unknown
  ∧ State.reset.supply.state = .battery ∧ State.reset.supply.fallCount = 0 ∧ State.reset.supply.riseCount = 0
  ∧ State.reset.supply.allotments = [] ∧ State.reset.supply.queue = []
  ∧ State.reset.level.state = .idle ∧ State.reset.level.outcome = .none ∧ State.reset.level.passes = 0
  ∧ State.reset.level.pitchTarget = 0 ∧ State.reset.level.rollTarget = 0 ∧ State.reset.level.drift = 0
  ∧ State.reset.program = ⟨none, .none⟩ ∧ State.reset.wind = ⟨0, 0, none⟩
  ∧ State.reset.memory.writing = none ∧ State.reset.memory.pendingWrites = [] ∧ State.reset.pending = []

/-! ### What every step keeps -/

/-- 11 R190: after every step each attention line is asserted exactly when its two sets share an event. -/
def Obligations.StepKeepsAttentionLines : Prop := ∀ s t : State, step s = .next t → LinesAgree s → LinesAgree t

/-- 05 R87, R88, R90: after every step the alarm stands as the drive-away field does, and the field says whether the
condition holds. A MOTION_RESET alone may leave the field otherwise: it keeps both, and the ends of its sessions are no
evaluation, by the model's reading (log 64). -/
def Obligations.StepKeepsDriveAway : Prop :=
  ∀ s t : State, step s = .next t →
    (AlarmFollows s → AlarmFollows t)
    ∧ ((∀ c rest, s.pending = c :: rest → ¬CompletesMotionReset c s) → DriveAwayAgrees s → DriveAwayAgrees t)

/-- 12 R195, R201: every step leaves at most one pending write for each block, and none while the memory is idle; the
memory's bytes keep their canonical form within its 2048 addresses. -/
def Obligations.StepKeepsWriteQueue : Prop := ∀ s t : State, step s = .next t → WritesOrdered s → WritesOrdered t

/-- 04 R54: every step leaves each channel in at most one session. -/
def Obligations.StepKeepsOneSessionPerChannel : Prop :=
  ∀ s t : State, step s = .next t → OneSessionEach s → OneSessionEach t

/-- 06 R95, R97, R100, R101, R104: no step lets the held sum exceed the budget of the present supply state, or the wait
queue exceed 8 entries. -/
def Obligations.StepKeepsCurrentWithinBudget : Prop := ∀ s t : State, step s = .next t → SupplyKept s → SupplyKept t

/-- 05 R78, R85: no step leaves a session other than an awning retraction while the chassis reports a road speed. -/
def Obligations.StepKeepsTravelStill : Prop := ∀ s t : State, step s = .next t → TravelStill s → TravelStill t

/-! ### Requests as bytes -/

/-- 11 R179, R180, R183, section 11.8: the bytes of a request's frame, met by a hunting receiver outside Sleep, do what
the request's row does, with every field of every request at every value it can carry; the last byte's time is kept. -/
def Obligations.FrameBytesMeanTheirRequest : Prop :=
  ∀ (c : Instr) (l : Link) (code : Byte) (payload : List Byte) (s : State),
    requestFrame c = some (l, code, payload) → c.wellFormed = true →
    Settled s → s.control.mode ≠ .sleep → s.links[l].receiver = .hunt →
    runAll (frameCommands l code payload) s
      = exec c { s with links := upd s.links l fun r => { r with lastByteAt := s.now } }

/-- 11 R179 to R183, R191, 12 R197, R199, R200: what a byte outside Sleep does to a receiver; while a reply that was being
sent at a Sleep entry is still sent, nothing. Of the bytes that complete a frame whose CRC matches: those of a frame that the
Link Interface itself answers, with NOT_READY in LOADING, UNKNOWN_REQUEST, BAD_LENGTH or BAD_ARG; nothing but the receiver
and the Mode Controller's timers and mark changes, which CHASSIS_STATUS leaves, but for the Service owner's timer. -/
def Obligations.LinkByteMovesReceiver : Prop :=
  ∀ (l : Link) (b : Byte) (good : Bool) (s : State), Settled s → s.control.mode ≠ .sleep →
    (∀ after, s.links[l].receiver = .sleptReply after → exec (.linkByte l b good) s = .next s)
    ∧ (good = false → (∀ late after, s.links[l].receiver ≠ .reply late after) →
      (∀ after, s.links[l].receiver ≠ .sleptReply after) →
      exec (.linkByte l b good) s = .next { s with links := upd s.links l fun r =>
        { r with flags := { r.flags with framing := true }, receiver := .discard, lastByteAt := s.now } })
    ∧ (∀ late after, s.links[l].receiver = .reply late after →
      exec (.linkByte l b good) s = .next { s with links := upd s.links l fun r =>
        { r with flags := { r.flags with overrun := true, framing := r.flags.framing || !good },
                 receiver := .reply true after, lastByteAt := s.now } })
    ∧ (good = true → s.links[l].receiver = .hunt →
      exec (.linkByte l b good) s = .next (if b = 0x5C
        then { s with links := upd s.links l fun r => { r with receiver := .frame [], lastByteAt := s.now } } else s))
    ∧ (good = true → s.links[l].receiver = .discard →
      exec (.linkByte l b good) s = .next { s with links := upd s.links l fun r => { r with lastByteAt := s.now } })
    ∧ (good = true → s.links[l].receiver = .frame [] →
      exec (.linkByte l b good) s = .next { s with links := upd s.links l fun r =>
        if 48 < b.toNat
        then { r with flags := { r.flags with overlong := true }, receiver := .discard, lastByteAt := s.now }
        else { r with receiver := .frame [b], lastByteAt := s.now } })
    ∧ (∀ n taken, good = true → s.links[l].receiver = .frame (n :: taken) → n.toNat ≤ 48 →
      taken.length + 2 < n.toNat + 4 →
      exec (.linkByte l b good) s = .next { s with links := upd s.links l fun r =>
        { r with receiver := .frame (n :: taken ++ [b]), lastByteAt := s.now } })
    ∧ (∀ code hi payload, good = true → payload.length ≤ 48 →
      s.links[l].receiver = .frame (byte payload.length :: code :: payload ++ [hi]) →
      [hi, b] ≠ bytesOf 2 (crc16 (byte payload.length :: code :: payload)).toNat →
      exec (.linkByte l b good) s = .next { s with links := upd s.links l fun r =>
        { r with flags := { r.flags with crcFail := true }, receiver := .hunt, lastByteAt := s.now } })
    ∧ (∀ code hi payload status, good = true → payload.length ≤ 48 →
      s.links[l].receiver = .frame (byte payload.length :: code :: payload ++ [hi]) →
      [hi, b] = bytesOf 2 (crc16 (byte payload.length :: code :: payload)).toNat →
      linkAnswer code payload s = some status →
      exec (.linkByte l b good) s = .next { s with
        control := if code = 0x11 then { s.control with serviceDue := (heardControl l s).serviceDue } else heardControl l s
        links := upd s.links l fun r => replying code { status := status } { r with lastByteAt := s.now } })

/-- 11 R191, 12 R200, 02 R35, 03 R52: in Sleep a start byte on a link whose permission set is not CHASSIS alone wakes
the part and its frame is discarded; any other byte does nothing, nor does any byte while the link still sends a reply
that was being sent at the Sleep entry. That a hall input's age stands still in Sleep is the model's reading (log 23). -/
def Obligations.StartByteWakes : Prop :=
  ∀ (l : Link) (b : Byte) (good : Bool) (s : State), Quiet s → s.control.mode = .sleep →
    s.control.wake = none →
    (∀ after, s.links[l].receiver = .sleptReply after → s.control.idleDue = none →
      exec (.linkByte l b good) s = .next s)
    ∧ (s.links[l].receiver = .hunt →
    (b ≠ 0x5C ∨ good = false ∨ s.settings.permissions[l] = 0b100000 →
      s.control.idleDue = none → exec (.linkByte l b good) s = .next s)
    ∧ (∀ since, b = 0x5C → good = true → s.settings.permissions[l] ≠ 0b100000 → s.pulse.offSince = some since →
      exec (.linkByte l b good) s = .next { s with
        control := { s.control with
          mode := .ready, wake := some ⟨s.now + seconds 20, false⟩, wakeFrameMark := false
          idleDue := if s.sessions = [] ∧ s.program.run = none ∧ ignitionOn s = false
            then some (s.control.idleDue.getD (s.now + minutes 30)) else none }
        events := posted .mode s
        links := upd s.links l fun r => { r with receiver := .discard, lastByteAt := s.now }
        sampler := { s.sampler with
          running := true, frameStart := s.now, inForce := s.settings.slots
          pitch := { s.sampler.pitch with seeded := false }, roll := { s.sampler.roll with seeded := false } }
        pulse := { s.pulse with
          offSince := none, wind := { s.pulse.wind with on := true }
          inputs := updAll s.pulse.inputs fun _ h => { h with lastEdgeAt := h.lastEdgeAt + (s.now - since) } } }))

/-- 11 R179, R181, R191: the gap timer ends a frame with SHORT, the quiet timer ends DISCARD, and the end of a reply ends
REPLY, in DISCARD if a byte came meanwhile, but in HUNT if it was being sent at a Sleep entry, whether the part still
sleeps or has woken. The time is the model's (log 3), as is the moment from which DISCARD counts its
quiet (log 7). -/
def Obligations.ReceiverTimersReturnToHunt : Prop :=
  ∀ (l : Link) (s : State), Settled s →
    (∀ taken, s.links[l].receiver = .frame taken →
      exec (.gapTimerExpiry l) s = .next { s with
        now := max s.now (s.links[l].lastByteAt + ms 5)
        links := upd s.links l fun r => { r with flags := { r.flags with short := true }, receiver := .hunt } })
    ∧ (s.links[l].receiver = .discard →
      exec (.quietTimerExpiry l) s = .next { s with
        now := max s.now (s.links[l].lastByteAt + ms 5)
        links := upd s.links l fun r => { r with receiver := .hunt } })
    ∧ (∀ late, s.links[l].receiver = .reply late .nothing → s.control.mode ≠ .sleep →
      exec (.replySent l) s = .next { s with
        links := upd s.links l fun r =>
          { r with receiver := if late then .discard else .hunt, lastByteAt := s.now } })
    ∧ (s.links[l].receiver = .sleptReply .nothing →
      exec (.replySent l) s = .next { s with
        links := upd s.links l fun r => { r with receiver := .hunt, lastByteAt := s.now } })

/-! ### Requests that start no motion -/

/-- 04 R64, 10 R171: KEEP sets the keep deadline of every HOLD and JOG session of the link that is not STOPPING, and the
run keep deadline of the link's run, to now plus the keep window; the reply counts the sessions and reports the run. -/
def Obligations.KeepRefreshesOwnSessions : Prop :=
  ∀ (l : Link) (s : State), Hears l s →
    let kept := fun x : Session => decide (x.owner = .link l ∧ x.kind ≠ .oneTouch ∧ x.phase ≠ .stopping)
    let due := s.now + ms s.settings.keepWindow
    let ownRun := match s.program.run with | some r => decide (r.owner = l) | none => false
    exec (.keep l) s = .next (answered l 0x02
      { status := .ok, data := [byte (s.sessions.filter kept).length, if ownRun then 1 else 0] }
      { s with
        sessions := s.sessions.map fun x => if kept x then { x with keepDue := some due } else x
        program := { s.program with
          run := s.program.run.map fun r => if r.owner = l then { r with keepDue := due } else r } })

/-- 07 R128: SET_LEVEL_TARGET, in the order of its checks; each target is stored within -300 to 300. -/
def Obligations.SetLevelTargetStores : Prop :=
  ∀ (l : Link) (pitch roll : Word) (s : State), Hears l s →
    let barred := s.control.mode = .service ∧ s.control.serviceOwner ≠ some l
    let p := max (-300) (min 300 pitch.toInt)
    let r := max (-300) (min 300 roll.toInt)
    exec (.setLevelTarget l pitch roll) s = .next (
      if permits l .moveJack s = false then answered l 0x07 { status := .notPermitted } s
      else if barred then answered l 0x07 { status := .badState } s
      else answered l 0x07 { status := if p = pitch.toInt ∧ r = roll.toInt then .ok else .clamped }
        { s with level := { s.level with pitchTarget := p, rollTarget := r } })

/-- 11 R189: READ_EVENTS returns the link's pending set and empties it, which releases the link's line; the other
links' sets are left. -/
def Obligations.ReadEventsEmptiesOwnSet : Prop :=
  ∀ (l : Link) (s : State), Hears l s →
    exec (.readEvents l) s = .next (answered l 0x0C
      { status := .ok, data := bytesOf 2 (s.events[l].pending).toNat }
      { s with events := upd s.events l fun b => { b with pending := 0, line := false } })

/-- 11 R190: SET_EVENT_ENABLE replaces the link's enable set, bits 14 and 15 stored as 0 and then CLAMPED, and the line
is judged. -/
def Obligations.SetEventEnableReplaces : Prop :=
  ∀ (l : Link) (set : Word) (s : State), Hears l s →
    exec (.setEventEnable l set) s = .next (answered l 0x0D
      { status := if set &&& 0xC000 = 0 then .ok else .clamped }
      { s with events := upd s.events l fun b =>
        { b with enable := set &&& 0x3FFF, line := (b.pending &&& (set &&& 0x3FFF)) != 0 } })

/-- 11 R188: a post adds its event to the pending set of every link, an event already there leaving the set as it was,
and judges every line; no set gains a bit that is no event. -/
def Obligations.PostReachesEveryLink : Prop :=
  ∀ (e : Event) (s : State),
    postEvent e s = { s with events := posted e s }
    ∧ postEvent e (postEvent e s) = postEvent e s
    ∧ ∀ (l : Link) (k : Fin 16),
        ((postEvent e s).events[l].pending).getLsbD k.val
          = (decide (k.val = e.bit) || (s.events[l].pending).getLsbD k.val)
          ∧ (13 < k.val → ((postEvent e s).events[l].pending).getLsbD k.val = (s.events[l].pending).getLsbD k.val)

/-- 01 R16: READ_FAULTS lists the records whose kind is not none, in the order of the channels, and sets the link's
seen-mark in exactly those. -/
def Obligations.ReadFaultsListsAndMarks : Prop :=
  ∀ (l : Link) (s : State), Hears l s → ∃ t : State,
    exec (.readFaults l) s = .next t
    ∧ t.links = upd s.links l (replying 0x0E { status := .ok, data := allHolders.flatMap fun h =>
        match (faultOf h s).kind with
        | some k => [byte h.code, byte (k.code + if (faultOf h s).further then 128 else 0)]
        | none => [] })
    ∧ (∀ h : FaultHolder, faultOf h t = if (faultOf h s).kind = none then faultOf h s
        else { faultOf h s with seen := upd (faultOf h s).seen l fun _ => true })
    ∧ (∀ j : Jack, t.jacks[j] = { s.jacks[j] with fault := faultOf (.channel (.jack j)) t })
    ∧ (∀ i : Slide, t.slides[i] = { s.slides[i] with fault := faultOf (.channel (.slide i)) t })
    ∧ (∀ a : Awning, t.awnings[a] = { s.awnings[a] with fault := faultOf (.channel (.awning a)) t })
    ∧ t = { s with
        control := heardControl l s, links := t.links, jacks := t.jacks, slides := t.slides, awnings := t.awnings,
        pumpFault := t.pumpFault }

/-- 01 R17: CLEAR_FAULT needs the class's move permission; a clear record answers OK, a record the link has seen is
cleared, and one it has not seen is left. -/
def Obligations.ClearFaultNeedsSeen : Prop :=
  ∀ (l : Link) (h : FaultHolder) (s : State), Hears l s →
    let needed := match h with
      | .channel (.jack _) => Permission.moveJack
      | .channel (.slide _) => .moveSlide
      | .channel (.awning _) => .moveAwning
      | .pump => .moveJack
    exec (.clearFault l h) s = .next (
      if permits l needed s = false then answered l 0x0F { status := .notPermitted } s
      else if (faultOf h s).kind = none then answered l 0x0F { status := .ok } s
      else if (faultOf h s).seen[l] = true then answered l 0x0F { status := .ok } (setFault h {} s)
      else answered l 0x0F { status := .notSeen } s)
    ∧ ∀ g : FaultHolder, faultOf g (setFault h {} s) = if g = h then {} else faultOf g s

/-- 11 R186: READ_LINK_STATUS returns the link's flags and permission set and clears the flags; the other links' flags
are left; a byte during this very reply sets OVERRUN afresh. -/
def Obligations.ReadLinkStatusClearsFlags : Prop :=
  ∀ (l : Link) (s : State), Hears l s →
    let f := s.links[l].flags
    let code := (if f.short then 1 else 0) + (if f.overlong then 2 else 0) + (if f.framing then 4 else 0)
      + (if f.crcFail then 8 else 0) + (if f.overrun then 16 else 0)
    let cleared := upd s.links l fun r : LinkRec => { r with flags := {} }
    let t := answered l 0x10 { status := .ok, data := [byte code, byte (s.settings.permissions[l]).toNat] }
      { s with links := cleared }
    exec (.readLinkStatus l) s = .next t
    ∧ ∀ b : Byte, exec (.linkByte l b true) t = .next { t with links := upd t.links l fun r =>
        { r with flags := { overrun := true }, receiver := .reply true .nothing, lastByteAt := s.now } }

/-- 11 R187, R193, section 11.8: page 0 takes a new image of both pages into the link's latch and returns its page 0; page 1
comes from the latch, and is answered NO_SNAPSHOT while the latch is empty. Both pages are 47 bytes, laid out as the
tables of section 11.8 say. What is shown where a run has no current step, or no step after it, is free (log 41). That a
run keep deadline equal to the present time shows as passed is the model's reading (log 19), as are the fields shown for a
run, a session or a last end that does not exist (log 62). -/
def Obligations.ReadPostureLatchesBothPages : Prop :=
  ∀ (l : Link) (s : State), Hears l s →
    exec (.readPosture l .zero) s = .next (answered l 0x01 { status := .ok, data := (capture s).page0 }
      { s with links := upd s.links l fun r : LinkRec => { r with latch := some (capture s) } })
    ∧ exec (.readPosture l .one) s = .next (answered l 0x01 (match s.links[l].latch with
        | some image => { status := .ok, data := image.page1 }
        | none => { status := .noSnapshot }) s)
    ∧ (capture s).page0.length = 47 ∧ (capture s).page1.length = 47
    ∧ (capture s).page0.take 2 =
      [byte (64 * s.control.mode.code + 16 * s.supply.state.code + 8 * boolBit (supplyValid s)
          + 4 * boolBit (attitudeValid s) + 2 * boolBit (levelled s) + boolBit s.interlock.driveAway),
       byte (64 * (chassisCondition s).code + match s.interlock.record with
          | some r => 16 * r.ignition.code + 8 * boolBit r.brakeSet + 2 * r.gear.code + boolBit r.engine
          | none => 0)]
    ∧ PageZeroShown (capture s).page0 s ∧ PageOneShown (capture s).page1 s

/-- 12 R198, 11 R183, 02 R33: READ_SETTING answers BAD_ARG to a number that names no setting, and otherwise returns the
number and the setting's present value, from any link. WRITE_SETTING, in the order of its checks; a taken value is
stored, a difference sets the changed mark, and the tilt slots follow their offsets. Said, where the setting is an input of
the interlock checks, of sessions none of which fails them (05 R84). Which numbers name settings and what an out-of-range
value is stored as are the model's where the manual is silent (log 11 to 14, 33). -/
def Obligations.SettingsAreReadAndWritten : Prop :=
  ∀ (l : Link) (number : Word) (value : List Byte) (s : State), Hears l s →
    exec (.readSetting l number) s = .next (answered l 0x15 (match settingKey number with
      | none => { status := .badArg }
      | some key =>
        { status := .ok, data := bytesOf 2 number.toNat ++ bytesOf key.size (readKey key s.settings) }) s)
    ∧ (settingKey number = none →
      exec (.writeSetting l number value) s = .next (answered l 0x16 { status := .badArg } s))
    ∧ ∀ key, settingKey number = some key →
      let x := storeKey key s.control.serviceOwner (natOfBytes value) s.settings
      let stored := { s with
        settings := x.value
        control := { s.control with settingsChanged := s.control.settingsChanged || decide (x.value ≠ s.settings) }
        sampler := tiltMoved s.settings x.value s.sampler }
      (value.length ≠ key.size →
        exec (.writeSetting l number value) s = .next (answered l 0x16 { status := .badLength } s))
      ∧ (value.length = key.size → permits l .configure s = false →
        exec (.writeSetting l number value) s = .next (answered l 0x16 { status := .notPermitted } s))
      ∧ (value.length = key.size → permits l .configure s = true →
        ¬(s.control.mode = .service ∧ s.control.serviceOwner = some l) →
        exec (.writeSetting l number value) s = .next (answered l 0x16 { status := .badState } s))
      ∧ (value.length = key.size → permits l .configure s = true →
        s.control.mode = .service → s.control.serviceOwner = some l →
        (key.reevaluates = true → ∀ y ∈ s.sessions, failsAgain .settings y stored = none) →
        exec (.writeSetting l number value) s
          = .next (answered l 0x16 { status := if x.clamped then .clamped else .ok } stored))

/-- 12 section 12.4, 11 R184, 10 R162, 02 section 2.2: a value stored without a clamp reads back as it was written, and
no other setting's value changes. -/
def Obligations.SettingReadsBackAsWritten : Prop :=
  ∀ (key other : SettingKey) (owner : Option Link) (v : Nat) (x : Settings), v < 256 ^ key.size →
    (storeKey key owner v x).clamped = false →
    readKey key (storeKey key owner v x).value = v
    ∧ (other ≠ key → readKey other (storeKey key owner v x).value = readKey other x)

/-- 07 R129, 02 R33: CAPTURE_LEVEL; when taken, the present attitude becomes zero: each tilt offset falls by the filtered
value, and the values follow. R129 does not number its checks: the order of attitude before BUSY is the model's (log 31). -/
def Obligations.CaptureLevelZeroes : Prop :=
  ∀ (l : Link) (s : State), Hears l s →
    let limited := fun v : Int => max (-32000) (min 32000 v)
    let p := s.settings.slots[(0 : Slot)].offset - s.sampler.pitch.value
    let r := s.settings.slots[(1 : Slot)].offset - s.sampler.roll.value
    let x := { s.settings with
      slots := upd (upd s.settings.slots 0 fun c => { c with offset := limited p }) 1
        (fun c => { c with offset := limited r }) }
    exec (.captureLevel l) s = .next (
      if permits l .configure s = false then answered l 0x17 { status := .notPermitted } s
      else if ¬(s.control.mode = .service ∧ s.control.serviceOwner = some l) then
        answered l 0x17 { status := .badState } s
      else if attitudeValid s = false then
        answered l 0x17 { status := .refused, reason := some .sensorInvalid } s
      else if jacksSession s ≠ none then answered l 0x17 { status := .busy } s
      else answered l 0x17 { status := if limited p = p ∧ limited r = r then .ok else .clamped }
        { s with
          settings := x, control := { s.control with settingsChanged := true }
          sampler := tiltMoved s.settings x s.sampler })

/-! ### Chassis, modes and resets -/

/-- 05 R73, R74, R75, R84, R85, R87, R88, R89, 07 R123, 12 R197: CHASSIS_STATUS needs CHASSIS; a code that is no value is
answered BAD_ARG; a taken frame becomes the record, its speed limited to 2000, restarts the staleness timer and is judged
for drive-away, and a change to TRAVEL ends HOLDING. In READY: a session that fails the new condition ends INTERLOCK with
the condition's reason, or with its pending code, and one that passes its checks runs on; an ignition edge retracts the
awnings set for it. In SERVICE: a chassis that leaves PARKED ends Service. The order of the four receivers is the model's
(log 47). -/
def Obligations.ChassisStatusTakesRecord : Prop :=
  ∀ (l : Link) (ignition brake gear : Byte) (speed : Word) (engine : Byte) (s : State),
    Hears l s → Settled s →
    let known := ignition.toNat ≤ 2 ∧ brake.toNat ≤ 1 ∧ gear.toNat ≤ 2 ∧ engine.toNat ≤ 1
    let reply := if speed.toNat ≤ 2000 then Status.ok else .clamped
    let answer := fun (rep : Reply) (u : State) => { u with links := upd u.links l (replying 0x11 rep) }
    (s.control.mode = .ready → permits l .chassis s = false →
      exec (.chassisStatus l ignition brake gear speed engine) s = .next (answer { status := .notPermitted } s))
    ∧ (s.control.mode = .ready → permits l .chassis s = true → ¬known →
      exec (.chassisStatus l ignition brake gear speed engine) s = .next (answer { status := .badArg } s))
    ∧ ∀ r : ChassisRecord, permits l .chassis s = true →
      r.ignition.code = ignition.toNat → boolBit r.brakeSet = brake.toNat → r.gear.code = gear.toNat →
      r.speed = min speed.toNat 2000 → boolBit r.engine = engine.toNat →
      let edge := r.ignition = .on ∧ ignitionOn s = false
      let retracting := allAwnings.filter fun a =>
        s.settings.autoRetract[a] && decide (s.awnings[a].state ≠ .stowed)
      let away := (!r.brakeSet || decide (0 < r.speed)) && allChannels.any fun c => !isStowed c s
      let taken := InterlockUnit.mk (some r) true (some (s.now + seconds 2)) away away
      let condition := conditionOf (some r) true
      let warned := if away = true ∧ s.interlock.driveAway = false then posted .driveAway s else s.events
      let unheld := if 0 < r.speed ∧ s.level.state = .holding
        then { s.level with state := .idle, deferred := false } else s.level
      let idle := if r.ignition ≠ .on ∧ s.program.run = none
        then some (s.control.idleDue.getD (s.now + minutes 30)) else none
      (s.control.mode = .ready → s.sessions = [] →
        DriveAwayAgrees s ∨ AlarmFollows s ∧ condition ≠ chassisCondition s →
        (s.level.state = .holding → chassisCondition s ≠ .travel) → (edge → retracting = []) →
        exec (.chassisStatus l ignition brake gear speed engine) s = .next (answer { status := reply } { s with
          interlock := taken, events := warned, level := unheld, control := { s.control with idleDue := idle } }))
      ∧ (s.control.mode = .ready → AtRest s → DriveAwayAgrees s → edge → retracting ≠ [] →
        ∃ t, exec (.chassisStatus l ignition brake gear speed engine) s = .next t
          ∧ Retracts .ignition retracting s t ∧ t.interlock = taken ∧ t.events = warned
          ∧ t.control = { s.control with idleDue := none } ∧ t.links = upd s.links l (replying 0x11 { status := reply })
          ∧ t = { s with
              control := t.control, links := t.links, events := t.events, drive := t.drive, sessions := t.sessions
              awnings := t.awnings, interlock := t.interlock, supply := t.supply, level := t.level })
      ∧ (∀ x : Session, s.control.mode = .ready → s.sessions = [x] → x.origin = .link → s.program.run = none →
        s.level.deferred = false → (edge → retracting = []) →
        (edge → ∀ a : Awning, x.cover = .one (.awning a) → s.settings.autoRetract[a] = false) →
        let fails := condition ≠ chassisCondition s
          ∧ if x.motion.outward = true then condition ≠ .parked
            else condition = .travel ∧ x.motion.awningRetract = false
        (fails → ∃ t, exec (.chassisStatus l ignition brake gear speed engine) s = .next t
          ∧ t.sessions = []
          ∧ (let code := if x.phase = .stopping then x.pendingEnd.getD .interlock else .interlock
             let reason := if condition = .travel then Reason.travel else .notParked
             ∀ c ∈ x.cover.channels,
               lastEndOf c t = some ⟨code, if code = .interlock then some reason else none, x.owner, x.op⟩)
          ∧ (∀ o : Output, o ≠ pumpOutput → t.drive[o]
              = if o ∈ outputsOfCover x.cover ∧ x.phase ≠ .waiting then forced s.drive[o] else s.drive[o])
          ∧ t.memory = storeAsked .posture { t with memory := s.memory }
          ∧ t.interlock = { taken with driveAway := t.interlock.driveAway, alarm := t.interlock.alarm }
          ∧ (∀ k : Link, (t.events[k].pending).getLsbD 1 = true)
          ∧ t.links = upd s.links l (replying 0x11 { status := reply }) ∧ t.settings = s.settings
          ∧ t.sampler = s.sampler ∧ t.program = s.program ∧ t.wind = s.wind ∧ t.control.mode = .ready)
        ∧ (¬fails → interlock true x.motion { s with interlock := taken } = none →
          ∃ t, exec (.chassisStatus l ignition brake gear speed engine) s = .next t
            ∧ t.sessions = [x] ∧ t.drive = s.drive ∧ t.supply = s.supply ∧ t.slides = s.slides
            ∧ t.interlock = { taken with driveAway := t.interlock.driveAway, alarm := t.interlock.alarm }
            ∧ t.links = upd s.links l (replying 0x11 { status := reply })
            ∧ t = { s with links := t.links, interlock := t.interlock, events := t.events, level := t.level }))
      ∧ (s.control.mode = .service → chassisCondition s = .parked → condition ≠ .parked → DriveAwayAgrees s →
        (edge → retracting = []) →
        (s.sessions = [] → exec (.chassisStatus l ignition brake gear speed engine) s
          = .next (answer { status := reply } { s with
            control := { s.control with
              mode := .ready, serviceOwner := none, serviceDue := none, settingsChanged := false, idleDue := idle }
            interlock := taken, level := unheld
            events := posted .mode { s with events := warned }
            memory := if s.control.settingsChanged || s.control.settingsDefaulted
              then storeAsked .settings s else s.memory }))
        ∧ ∃ t, exec (.chassisStatus l ignition brake gear speed engine) s = .next t
          ∧ t.control.mode = .ready ∧ t.control.serviceOwner = none ∧ ∀ x ∈ t.sessions, x.kind ≠ .jog)

/-- 12 R199, R202: MODE SLEEP and FULL_RESET, in the order of their checks; each acts once its reply is sent. -/
def Obligations.SleepAndFullResetAnswer : Prop :=
  ∀ (l : Link) (s : State), Hears l s →
    exec (.modeSleep l) s = .next (
      if s.settings.permissions[l] &&& 0b011111 = 0 then answered l 0x12 { status := .notPermitted } s
      else if s.control.mode = .ready ∧ s.sessions = [] ∧ s.program.run = none then
        answered l 0x12 { status := .ok, after := .sleep } s
      else answered l 0x12 { status := .badState } s)
    ∧ exec (.fullReset l) s = .next (
      if permits l .configure s = false then answered l 0x14 { status := .notPermitted } s
      else if s.control.mode = .service ∧ s.control.serviceOwner ≠ some l then
        answered l 0x14 { status := .badState } s
      else answered l 0x14 { status := .ok, after := .fullReset } s)

/-- 12 R199: Sleep is entered at the end of MODE SLEEP's reply if nothing stands against it then, and is otherwise
abandoned; and when the idle timer runs out. An entry abandoned in SERVICE is the model's reading (log 22). -/
def Obligations.SleepIsEntered : Prop :=
  (∀ (l : Link) (late : Bool) (s : State), Settled s → s.control.mode ≠ .sleep →
    s.links[l].receiver = .reply late .sleep →
    let left := { s with links := upd s.links l fun r =>
      { r with receiver := if late then .discard else .hunt, lastByteAt := s.now } }
    if s.control.mode = .ready ∧ s.sessions = [] ∧ s.program.run = none
    then ∃ t, exec (.sleepReplyEnd l) s = .next t ∧ Slept left t
    else exec (.sleepReplyEnd l) s = .next left)
  ∧ ∀ (due : Nat) (s : State), Settled s → s.control.idleDue = some due →
    ∃ t, exec .idleTimerExpiry s = .next t ∧ Slept { s with now := max s.now due } t

/-- 12 R197: SERVICE_ENTER, in the order of its checks; the link becomes the Service owner and the inactivity timer
starts. -/
def Obligations.ServiceEnterTakesOwner : Prop :=
  ∀ (l : Link) (s : State), Hears l s →
    exec (.serviceEnter l) s = .next (
      if permits l .configure s = false then answered l 0x12 { status := .notPermitted } s
      else if s.control.mode = .ready ∧ s.sessions = [] ∧ s.program.run = none ∧ chassisCondition s = .parked then
        { s with
          control := { s.control with
            mode := .service, serviceOwner := some l, serviceDue := some (s.now + minutes 15), idleDue := none,
            wake := none, wakeFrameMark := s.control.wakeFrameMark || s.control.wake.isSome }
          events := posted .mode s
          links := upd s.links l (replying 0x12 { status := .ok }) }
      else answered l 0x12 { status := .badState } s)

/-- 12 R197: SERVICE_EXIT from the owner and the inactivity timer store changed or defaulted settings, clear the owner
and return to READY; said where no JOG session exists. That the exit acts at the event that takes the request, which also
builds its OK, and not at the reply's end, is the model's reading (log 8): the table's row SERVICE_EXIT holds the exit's
effect, as rows of their own hold what MODE SLEEP and FULL_RESET do at their replies' ends, and by R197's last words an
exit taken first leaves READY for a chassis change to find. -/
def Obligations.ServiceExitStoresSettings : Prop :=
  ∀ s : State, s.control.mode = .service → (∀ x ∈ s.sessions, x.kind ≠ .jog) →
    let stores := s.control.settingsChanged || s.control.settingsDefaulted
    let left := { s with
      control := { s.control with
        mode := .ready, serviceOwner := none, serviceDue := none, settingsChanged := false }
      events := posted .mode s
      memory := if stores then storeAsked .settings s else s.memory }
    (∀ l : Link, Hears l s → exec (.serviceExit l) s = .next (
      if permits l .configure s = false then answered l 0x12 { status := .notPermitted } s
      else if s.control.serviceOwner ≠ some l then answered l 0x12 { status := .badState } s
      else answered l 0x12 { status := .ok } left))
    ∧ ∀ due : Nat, Settled s → s.control.serviceDue = some due →
      exec .serviceInactivityExpiry s = .next { left with
        now := max s.now due
        control := { left.control with
          idleDue := if idleHolds left then some (max s.now due + minutes 30) else none } }

/-- 12 R202, 04 R72, 01 R12, 03 R45, R53, 06 R105, 07 R130, 08 R147, 10 R178: MOTION_RESET, in the order of its checks;
every session ends RESET, the outputs fall, the run record goes, the supply tables are emptied and one posture store is
asked; the mode, the settings, the last driven directions, the counts, homed flags, fault records, the chassis record,
drive-away and the alarm stay (05 R90; that its own ends of sessions evaluate nothing is the model's reading, log 64).
Of the events it says that SESSION_END is posted. -/
def Obligations.MotionResetEndsAllMotion : Prop :=
  ∀ (l : Link) (s : State), Hears l s →
    let allowed := permits l .moveJack s || permits l .moveSlide s || permits l .moveAwning s
    let barred := s.control.mode = .service ∧ s.control.serviceOwner ≠ some l
    (allowed = false → exec (.motionReset l) s = .next (answered l 0x13 { status := .notPermitted } s))
    ∧ (allowed = true → barred → exec (.motionReset l) s = .next (answered l 0x13 { status := .badState } s))
    ∧ (allowed = true → ¬barred → ∃ t, exec (.motionReset l) s = .next t
      ∧ MotionEnded true s t ∧ t.interlock = s.interlock
      ∧ t.memory = storeAsked .posture { t with memory := s.memory }
      ∧ t.control = heardControl l { s with sessions := [], program := t.program }
      ∧ t.links = upd s.links l (replying 0x13 { status := .ok })
      ∧ t = { s with
          control := t.control, links := t.links, events := t.events, drive := t.drive, pulse := t.pulse,
          sessions := t.sessions, jacks := t.jacks, slides := t.slides, awnings := t.awnings,
          supply := t.supply, level := t.level, program := t.program, memory := t.memory, work := t.work })

/-- 12 R202, R201, 04 R72, 03 R45, 02 R35: once FULL_RESET's reply is sent, all motion ends, the sampler stops, a posture
store is asked, behind the one that the last session's end asked, and the part stands in LOADING until the write queue is
empty; the memory's bytes are as they were. -/
def Obligations.FullResetWaitsForWrites : Prop :=
  ∀ (l : Link) (late : Bool) (s : State), Settled s → s.links[l].receiver = .reply late .fullReset →
    ∃ t, exec (.fullResetReplyEnd l) s = .next t
      ∧ MotionEnded false s t
      ∧ t.control = { s.control with
          mode := .loading, load := .awaitWrites, serviceOwner := none, serviceDue := none, idleDue := none, wake := none }
      ∧ (let asked := fun m : MemoryUnit => storeAsked .posture { t with memory := m }
         t.memory = asked (if s.sessions = [] then s.memory else asked s.memory))
      ∧ t.memory.bytes = s.memory.bytes
      ∧ t.sampler = { s.sampler with
          running := false, slots := updAll s.sampler.slots fun _ r => { r with outCount := 0 } }
      ∧ t.links = upd s.links l (fun r => { r with
          receiver := if late = true ∧ s.control.mode ≠ .sleep then .discard else .hunt, lastByteAt := s.now })
      ∧ t = { s with
          control := t.control, links := t.links, events := t.events, sampler := t.sampler, drive := t.drive,
          pulse := t.pulse, sessions := t.sessions, jacks := t.jacks, slides := t.slides, awnings := t.awnings,
          interlock := t.interlock, supply := t.supply, level := t.level, program := t.program,
          memory := t.memory, work := t.work }

/-- 12 R195, R196, R201, R202: first power, a recovery, and the reload of a full reset whose writes are done bring every
part of the state to its power-on value, but for the memory's bytes; a write that power-on finds unfinished has left its own
block failing its CRC and every other byte as it was. The values the manual does not give are the model's (logs 18, 34, 35,
36, 37), as are the bytes left in a block whose write was cut short (log 56), and the clock, the free choices and the waiting
commands, its own, go on (log 32). -/
def Obligations.PowerOnAndReloadRebuild : Prop :=
  let fresh := fun (s : State) (drawn : Nat) (bytes : List Host.Cell) =>
    { State.reset with
      now := s.now, drive := freshDrive s.now
      pulse := { State.reset.pulse with inputs := Vector.replicate 10 { lastEdgeAt := s.now } }
      memory := { bytes := bytes }
      freeCount := s.freeCount + drawn, pending := s.pending }
  (∀ s : State,
    (s.memory.writing = none → exec .powerOn s = .next (fresh s 0 s.memory.bytes))
    ∧ (∀ w, WritesOrdered s → s.memory.writing = some w →
      ∃ bytes, CutShort w.block s.memory.bytes bytes ∧ exec .powerOn s = .next (fresh s 1 bytes)))
  ∧ ∀ s : State, Settled s → s.control.mode = .loading → s.control.load = .awaitWrites →
    exec .fullResetReload s = .next (
      if s.memory.writing = none ∧ s.memory.pendingWrites = [] then fresh s 0 s.memory.bytes else s)

/-! ### Start-up and the serial memory -/

/-- 12 R195, R196, 02 R19: the settings block's read ends; a block that answers and passes its CRC is taken, otherwise the
defaults are, with the mark and CONFIG_DEFAULTED; the sampler's frames begin. -/
def Obligations.SettingsBlockIsLoaded : Prop :=
  ∀ (answers : Bool) (s : State), Settled s → s.control.mode = .loading → s.control.load = .settings →
    let begun := fun x : Settings => { s.sampler with running := true, frameStart := s.now, inForce := x.slots }
    (∀ x, answers = true → storedSettings s.memory.bytes = some x →
      exec (.settingsBlockLoaded answers) s = .next { s with
        settings := x, control := { s.control with load := .posture }, sampler := begun x })
    ∧ (answers = false ∨ storedSettings s.memory.bytes = none →
      exec (.settingsBlockLoaded answers) s = .next { s with
        settings := Settings.defaults, sampler := begun Settings.defaults
        control := { s.control with load := .posture, settingsDefaulted := true }
        events := posted .configDefaulted s })

/-- 12 R195, R196, 01 R12, 03 R53: the posture block's read ends and the part is READY: counts, homed flags and states of slides
and awnings are taken from a valid block, and are otherwise lost, with POSTURE_LOST. In both cases every fault record is
clear and every stray tally 0; that this holds of what LOADING itself raised and counted is the model's reading (log 20). -/
def Obligations.PostureBlockIsLoaded : Prop :=
  ∀ (answers : Bool) (s : State), Settled s → s.control.mode = .loading → s.control.load = .posture →
    s.sessions = [] → s.program.run = none → s.interlock = {} →
    let ready := { s.control with mode := .ready, load := .none, idleDue := some (s.now + minutes 30) }
    (∀ m, answers = true → storedPosture s.memory.bytes = some m → ∃ t,
      exec (.postureBlockLoaded answers) s = .next t
      ∧ t.control = ready ∧ t.events = posted .mode s
      ∧ (∀ i : Slide, t.slides[i] = { s.slides[i] with
          homed := m.slides[i].homed, fault := {}, wasStowed := decide (m.slides[i].state = .stowed)
          seatedHome := false, stalledOut := false
          state := if m.slides[i].homed = false then .unhomed
            else if m.slides[i].state = .stowed then .stowed
            else if s.settings.slideFull[i] ≤ (m.slides[i].front + m.slides[i].rear) / 2 + 400 then .extended
            else .partially }
        ∧ t.pulse.inputs[frontHall i] = { s.pulse.inputs[frontHall i] with count := m.slides[i].front, stray := 0 }
        ∧ t.pulse.inputs[rearHall i] = { s.pulse.inputs[rearHall i] with count := m.slides[i].rear, stray := 0 })
      ∧ (∀ a : Awning, t.awnings[a] = { s.awnings[a] with
          homed := m.awnings[a].homed, fault := {}, wasStowed := decide (m.awnings[a].state = .stowed)
          seatedHome := false
          state := if m.awnings[a].homed = false then .unhomed
            else if m.awnings[a].state = .stowed then .stowed
            else if s.settings.awningFull[a] ≤ m.awnings[a].count then .extended
            else .partially }
        ∧ t.pulse.inputs[awningHall a] = { s.pulse.inputs[awningHall a] with count := m.awnings[a].count, stray := 0 })
      ∧ (∀ j : Jack, t.jacks[j] = { s.jacks[j] with fault := {} }) ∧ t.pumpFault = {}
      ∧ t = { s with
          control := ready, events := t.events, jacks := t.jacks, slides := t.slides, awnings := t.awnings
          pumpFault := {}, pulse := { s.pulse with inputs := t.pulse.inputs } })
    ∧ (answers = false ∨ storedPosture s.memory.bytes = none →
      exec (.postureBlockLoaded answers) s = .next { s with
        control := ready
        events := posted .mode { s with events := posted .postureLost s }
        pulse := { s.pulse with inputs := updAll s.pulse.inputs fun _ h => { h with count := 0, stray := 0 } }
        jacks := updAll s.jacks fun _ e => { e with fault := {} }
        slides := updAll s.slides fun _ e => { e with
          homed := false, state := .unhomed, fault := {}, wasStowed := false, seatedHome := false, stalledOut := false }
        awnings := updAll s.awnings fun _ e =>
          { e with homed := false, state := .unhomed, fault := {}, wasStowed := false, seatedHome := false }
        pumpFault := {} })

/-- 12 R195, R201: a finished write leaves the bytes of the image it captured in its block, with their CRC at the end, and
every other byte as it was; a load then gives the image back (of the layout inside a block, the model's, log 1). A settings
write clears the defaulted mark; the oldest pending write then begins by capturing its image from the present state. An
abandoned write gives way to the oldest pending one; whether its block fails its CRC afterwards is free (log 10): either
outcome is allowed, and nothing else depends on it. With no write in progress nothing happens (log 5). -/
def Obligations.WritesEndAndTheNextBegins : Prop :=
  ∀ s : State, Settled s → WritesOrdered s →
    (s.memory.writing = none → exec .memoryWriteDone s = .next s ∧ exec .memoryWriteAbandoned s = .next s)
    ∧ ∀ w : WriteImage, s.memory.writing = some w →
      (∃ bytes, BlockWritten w.block w.put s.memory.bytes bytes
        ∧ (∀ x, w = .settings x → x.Fits → storedSettings bytes = some x)
        ∧ (∀ x, w = .posture x → x.Fits → storedPosture bytes = some x)
        ∧ exec .memoryWriteDone s = .next { s with
            memory := { nextWriting s with bytes := bytes }
            control := match w with
              | .settings _ => { s.control with settingsDefaulted := false }
              | .posture _ => s.control })
      ∧ ∃ (bytes : List Host.Cell) (drawn : Nat),
        (bytes = s.memory.bytes ∧ drawn = 1 ∨ CutShort w.block s.memory.bytes bytes ∧ drawn = 2)
        ∧ exec .memoryWriteAbandoned s = .next { s with
            freeCount := s.freeCount + drawn, memory := { nextWriting s with bytes := bytes } }

/-- 12 R195, R201: a loss of power drops the write queue, and the block whose write was in progress fails its CRC, every
other byte being as it was. From then on nothing but POWER_ON changes anything (the model's log 28). -/
def Obligations.PowerLossStopsThePart : Prop :=
  (∀ (c : Instr) (s : State), s.powered = false → c ≠ .powerOn → exec c s = .next s)
  ∧ ∀ s : State, s.powered = true → WritesOrdered s →
    ∃ (bytes : List Host.Cell) (drawn : Nat),
      (match s.memory.writing with
        | none => bytes = s.memory.bytes ∧ drawn = 0
        | some w => CutShort w.block s.memory.bytes bytes ∧ drawn = 1)
      ∧ exec .powerLoss s = .next { s with
          powered := false, freeCount := s.freeCount + drawn, memory := { bytes := bytes } }

/-! ### Motion -/

/-- 04 R55, R57, R59, R61, R62, R68, 01 R18, 03 R41, 05 R76 to R83, R87, R88, 06 R97, 08 R133 to R135, R137, R146: a
MOVE of a slide whose checks pass. A JOG from the Service owner runs at the creep duty without a target, outward too if
the slide is not homed; said of a part at rest and a slide without a fault. An untargeted MOVE in READY that is no JOG:
where its current is there, the session is RUNNING, the budget holds its amperes, and both motors are given the
direction and the base duty of the position; where it must wait, it is WAITING and the answer is QUEUED; with more than
the budget asked, or the queue full, NO_SUPPLY. An inward slide needs only a chassis that is not travelling. The owner's
MOVE in the session's direction sets its target; the other way it is a reversal; a session that has once been a JOG creeps
for its whole life, which holds after such a reversal too by the model's reading (log 60). Said of a skew within the
deadband, and of retargets and reversals of the only session. Where a reversal only abandons a change in progress, the
state follows at once by the model's reading (log 45). -/
def Obligations.SlideMoveStarts : Prop :=
  ∀ (l : Link) (i : Slide) (d : Dir) (k : KindAsked) (s : State),
    Hears l s → permits l .moveSlide s = true →
    (s.control.mode = .service → s.control.serviceOwner = some l → SlideMayJog i d s → AtRest s → DriveAwayAgrees s →
      s.slides[i].fault.kind = none → s.settings.slideAmps ≤ budget s → (slideSkew i s).natAbs ≤ 8 →
      ∀ target : Option Word, exec (.move l (.slide i) d .jog target) s = .next (answered l 0x04 { status := .ok }
        (outAway (withSlide i d (linkSession (.slide i) l d .jog (seconds 90) false true s) s))))
    ∧ (∀ x : Session, s.control.mode = .service → s.control.serviceOwner = some l → k ≠ .jog → SlideMayMove i d s →
      s.sessions = [x] → x.cover = .one (.slide i) → x.owner = .link l → x.origin = .link → x.phase = .running →
      x.jogged = true → x.creep = false → x.dir = some d.flip → DriveAwayAgrees s → s.slides[i].state ≠ .stowed →
      (slideSkew i s).natAbs ≤ 8 →
      exec (.move l (.slide i) d k none) s = .next (answered l 0x04 { status := .ok } { s with
        sessions := [reversed d .hold s x]
        slides := upd s.slides i fun e => { e with
          seating := .none, lastFront := 300, lastRear := 300, lastDir := some d
          state := if s.drive[frontOutput i].dir = some d ∧ s.drive[rearOutput i].dir = some d then slideMoves d
            else e.state }
        drive := bothMotors i (given d 300) s.drive }))
    ∧ (s.control.mode = .ready → k ≠ .jog →
    let session := linkSession (.slide i) l d .hold (seconds 90) (creeps i d s)
    let ask := fun target : Option Word => exec (.move l (.slide i) d k target) s
    let no := ask none = .next (answered l 0x04 { status := .noSupply } s)
    let held := fun x : Session => if x.kind = .oneTouch then none else some (s.now + ms s.settings.keepWindow)
    (SlideMayMove i d s → AtRest s → DriveAwayAgrees s → s.settings.slideAmps ≤ budget s →
      (slideSkew i s).natAbs ≤ 8 →
      ask none = .next (answered l 0x04 { status := .ok } (outAway (withSlide i d (session true s) s))))
    ∧ (SlideMayMove i d s → sessionOn (.slide i) s = none →
      (budget s < s.settings.slideAmps → no)
      ∧ (s.settings.slideAmps ≤ budget s → ¬(s.settings.slideAmps ≤ remainder s ∧ s.supply.queue = []) →
        (8 ≤ s.supply.queue.length → no)
        ∧ (s.supply.queue.length < 8 → ask none = .next (answered l 0x04 { status := .queued } { s with
            sessions := s.sessions ++ [session false s]
            supply := { s.supply with
              queue := s.supply.queue ++ [⟨.session (.one (.slide i)), s.settings.slideAmps, s.now⟩] } }))))
    ∧ ∀ x : Session, s.sessions = [x] → x.cover = .one (.slide i) → x.owner = .link l → x.origin = .link →
      x.phase ≠ .stopping → x.kind ≠ .jog →
      (∀ target : Option Word, x.dir = some d →
        (∀ w, target = some w → s.slides[i].homed = true ∧ match d with
          | .outward => slidePosition i s < min w.toNat s.settings.slideFull[i]
          | .inward => min w.toNat s.settings.slideFull[i] < slidePosition i s) →
        let goal := target.map fun w => min w.toNat s.settings.slideFull[i]
        let reply := if ∃ w, target = some w ∧ s.settings.slideFull[i] < w.toNat then Status.clamped else .ok
        let near := ∃ t, goal = some t ∧ ¬(d = .inward ∧ t ≤ 400)
          ∧ slidePosition i s ≤ t + 400 ∧ t ≤ slidePosition i s + 400
        let duty := if near then min (plainDuty i (x.creep || x.jogged) s) 450 else plainDuty i (x.creep || x.jogged) s
        let changed := fun last (o : DriveOutput) => if last = duty then o else { o with buffered := some duty }
        let kept := { s with sessions := [{ x with target := goal, keepDue := held x }] }
        (x.phase = .waiting → ask target = .next (answered l 0x04 { status := reply } kept))
        ∧ (x.phase = .running → s.slides[i].seating = .none → (slideSkew i s).natAbs ≤ 8 →
          ask target = .next (answered l 0x04 { status := reply } { kept with
            slides := upd s.slides i fun e => { e with lastFront := duty, lastRear := duty }
            drive := upd (upd s.drive (frontOutput i) (changed s.slides[i].lastFront)) (rearOutput i)
              (changed s.slides[i].lastRear) })))
      ∧ (x.dir = some d.flip → x.creep = false → SlideMayMove i d s →
        (x.phase = .waiting →
          ask none = .next (answered l 0x04 { status := .ok } { s with sessions := [reversed d .hold s x] }))
        ∧ (x.phase = .running → DriveAwayAgrees s → s.slides[i].state ≠ .stowed → (slideSkew i s).natAbs ≤ 8 →
          let duty := plainDuty i x.jogged s
          ask none = .next (answered l 0x04 { status := .ok } { s with
            sessions := [reversed d .hold s x]
            slides := upd s.slides i fun e => { e with
              seating := .none, lastFront := duty, lastRear := duty, lastDir := some d
              state := if s.drive[frontOutput i].dir = some d ∧ s.drive[rearOutput i].dir = some d then slideMoves d
                else e.state }
            drive := bothMotors i (given d duty) s.drive }))))

/-- 04 R55, R57, R59, R61 to R63, R68, 01 R18, 05 R76, R82, R87, R88, 06 R97, R99, 09 R149: a MOVE of an awning. A JOG
from the Service owner runs at the creep duty without a target; said of a part at rest and an awning without a fault. An
untargeted MOVE in READY that is no JOG: a RETRACT passes every check and draws 9 A from the reserve; an EXTEND that
passes its checks draws its budget allotment, or is QUEUED, or is answered NO_SUPPLY. The owner's MOVE the other way is
a reversal, which changes the source of the current: to RETRACT always, from a queue place too; to EXTEND only if its
current fits at once. Said of a part at rest, of a part without slide sessions, and of the only session. Where a
reversal only abandons a change in progress, the state follows at once by the model's reading (log 45). -/
def Obligations.AwningMoveStarts : Prop :=
  ∀ (l : Link) (a : Awning) (d : Dir) (k : KindAsked) (s : State),
    Hears l s → permits l .moveAwning s = true →
    (d = .outward → chassisCondition s = .parked ∧ s.control.settingsDefaulted = false ∧ s.wind.lockoutDue = none
      ∧ s.awnings[a].fault.kind = none) →
    let creeps := decide (d = .inward) && s.awnings[a].fault.kind.isSome
    let kind : Kind := if k = .hold then .hold else .oneTouch
    let started : Kind := if creeps then .hold else kind
    let duty := fun creep : Bool => if creep = true ∨ s.awnings[a].homed = false then 300 else 800
    let moving := match d with | .outward => AwningState.extending | .inward => .retracting
    let cover := Cover.one (.awning a)
    let amps := s.settings.awningAmps
    let granted := { s.supply with
      allotments := [⟨.session cover, amps, some s.supply.nextOrder⟩], nextOrder := s.supply.nextOrder + 1 }
    let reserved := { s.supply with allotments := [⟨.session cover, 9, none⟩], queue := [] }
    let begins := fun e : AwningEntry =>
      { e with state := moving, wasStowed := decide (e.state = .stowed), seatedHome := false }
    let ask := exec (.move l (.awning a) d k none) s
    let no := ask = .next (answered l 0x04 { status := .noSupply } s)
    (s.control.mode = .service → s.control.serviceOwner = some l → AtRest s → DriveAwayAgrees s →
      s.awnings[a].fault.kind = none → (d = .outward → amps ≤ budget s) →
      ∀ target : Option Word, exec (.move l (.awning a) d .jog target) s
        = .next (answered l 0x04 { status := .ok } { outAway s with
          sessions := [linkSession (.awning a) l d .jog (seconds 60) false true s]
          supply := match d with | .inward => reserved | .outward => granted
          awnings := upd s.awnings a begins
          drive := upd s.drive (awningOutput a) (given d 300) }))
    ∧ (s.control.mode = .ready → k ≠ .jog → (d = .outward → s.awnings[a].homed = true) →
    (AtRest s → DriveAwayAgrees s → (d = .outward → amps ≤ budget s) →
      ask = .next (answered l 0x04 { status := .ok } { outAway s with
        sessions := [linkSession (.awning a) l d started (seconds 60) creeps true s]
        supply := match d with | .inward => reserved | .outward => granted
        awnings := upd s.awnings a begins
        drive := upd s.drive (awningOutput a) (given d (duty creeps)) }))
    ∧ (d = .outward → sessionOn (.awning a) s = none → (∀ x ∈ s.sessions, x.cover.isSlide = false) →
      (budget s < amps → no)
      ∧ (amps ≤ budget s → ¬(amps ≤ remainder s ∧ s.supply.queue = []) →
        (8 ≤ s.supply.queue.length → no)
        ∧ (s.supply.queue.length < 8 → ask = .next (answered l 0x04 { status := .queued } { s with
          sessions := s.sessions ++ [linkSession (.awning a) l d kind (seconds 60) false false s]
          supply := { s.supply with queue := s.supply.queue ++ [⟨.session cover, amps, s.now⟩] } }))))
    ∧ ∀ x : Session, s.sessions = [x] → x.cover = cover → x.owner = .link l → x.origin = .link → x.creep = false →
      x.dir = some d.flip → DriveAwayAgrees s → s.awnings[a].state ≠ .stowed →
      let turned := upd s.awnings a fun e =>
        { e with state := if s.drive[awningOutput a].dir = some d then moving else e.state }
      (x.phase = .running → d = .inward → s.supply.queue = [] → s.supply.allotments.map (·.holder) = [.session cover] →
        ask = .next (answered l 0x04 { status := .ok } { s with
          sessions := [reversed d kind s x], supply := reserved, awnings := turned
          drive := upd s.drive (awningOutput a) (given d (duty false)) }))
      ∧ (x.phase = .waiting → d = .inward → s.supply.allotments = [] → s.supply.queue.map (·.holder) = [.session cover] →
        ask = .next (answered l 0x04 { status := .ok } { s with
          sessions := [{ reversed d kind s x with phase := .running, runFrom := some s.now }], supply := reserved
          awnings := upd s.awnings a begins
          drive := upd s.drive (awningOutput a) (given d (duty false)) }))
      ∧ (x.phase = .running → d = .outward → s.supply.allotments = [⟨.session cover, 9, none⟩] → s.supply.queue = [] →
        if amps ≤ budget s
        then ask = .next (answered l 0x04 { status := .ok } { s with
          sessions := [reversed d kind s x], supply := granted, awnings := turned
          drive := upd s.drive (awningOutput a) (given d (duty false)) })
        else no))

/-- 04 R55, R57, R59, R61, R62, R68, 05 R76, R80, R87, R88, 06 R97, R98, 07 R126, 03 R43: a MOVE of one jack. A JOG from the
Service owner extends at the lift minimum duty, or retracts, without a target; said of a part at rest and a jack without
a fault. An untargeted MOVE in READY that is no JOG takes the pump's allotment, starts the pump, and opens the valve of
its direction, the other valve being written 0; while the pump is held it shares; while the pump waits it joins the
pump's place in the queue, QUEUED; where the pump must wait it is QUEUED, and beyond the budget or the queue NO_SUPPLY.
A RETRACT needs only a chassis that is not travelling and the support slides STOWED. The owner's MOVE in the session's
direction sets its target; the other way it is a reversal. The 1000 written to open a retract valve is the model's (log 55).
A session that the stroke published last puts at its end already ends DONE at once, undriven, and the owner's reversal or
new target that brings its end to that stroke stops it at once, by the model's reading (log 68). Said for a part that is not
HOLDING, of that undriven end at a part at rest, and of reversals and targets of the only session. -/
def Obligations.JackMoveStarts : Prop :=
  ∀ (l : Link) (j : Jack) (d : Dir) (k : KindAsked) (s : State),
    Hears l s → s.level.state ≠ .holding → DriveAwayAgrees s →
    permits l .moveJack s = true → s.pumpFault.kind = none →
    (d = .inward → chassisCondition s ≠ .travel ∧ supportSlidesStowed s = true) →
    (d = .outward → chassisCondition s = .parked ∧ s.control.settingsDefaulted = false
      ∧ s.jacks[j].fault.kind = none) →
    let written := fun (duty : Nat) (o : DriveOutput) => { o with buffered := some duty }
    let driven := fun (duty : Nat) (v : Vector DriveOutput 23) =>
      upd (upd v (extendValve j) (written (match d with | .outward => duty | .inward => 0))) (retractValve j)
        (written (match d with | .outward => 0 | .inward => 1000))
    let valves := driven 600
    let moving := fun e : JackEntry => { e with state := match d with | .outward => .extending | .inward => .retracting }
    let cover := Cover.one (.jack j)
    let session := linkSession (.jack j) l d .hold (seconds 60) false
    let amps := s.settings.pumpAmps
    let ask := exec (.move l (.jack j) d k none) s
    let no := ask = .next (answered l 0x04 { status := .noSupply } s)
    let pumped := { s.supply with
      allotments := [⟨.pump [cover], amps, some s.supply.nextOrder⟩], nextOrder := s.supply.nextOrder + 1 }
    let short := match d with
      | .outward => jackStroke j s + 3 < s.settings.maxStroke[j]
      | .inward => 50 < jackStroke j s
    (s.control.mode = .service → s.control.serviceOwner = some l → AtRest s → s.jacks[j].fault.kind = none →
      amps ≤ budget s → short → ∀ target : Option Word, exec (.move l (.jack j) d .jog target) s
        = .next (answered l 0x04 { status := .ok } { outAway s with
          sessions := [linkSession (.jack j) l d .jog (seconds 60) false true s], supply := pumped
          jacks := upd s.jacks j moving
          drive := driven 250 (upd s.drive pumpOutput (written 1000)) }))
    ∧ (s.control.mode = .ready → k ≠ .jog →
    (AtRest s → amps ≤ budget s → short → ask = .next (answered l 0x04 { status := .ok } { outAway s with
      sessions := [session true s], supply := pumped
      jacks := upd s.jacks j moving
      drive := valves (upd s.drive pumpOutput (written 1000)) }))
    ∧ (AtRest s → amps ≤ budget s → ¬short → s.jacks[j].state = jackRest j s → s.drive[pumpOutput].applied = 0 →
      s.drive[extendValve j].applied = 0 → s.drive[retractValve j].applied = 0 →
      let u := { s with
        supply := { s.supply with nextOrder := s.supply.nextOrder + 1 }
        jacks := upd s.jacks j fun e => { e with lastEnd := some ⟨.done, none, .link l, .move⟩ }
        drive := upd (upd (upd s.drive pumpOutput forced) (extendValve j) (written 0)) (retractValve j) (written 0)
        events := posted .sessionEnd s }
      ask = .next (answered l 0x04 { status := .ok } { u with memory := storeAsked .posture u }))
    ∧ ((∀ x ∈ s.sessions, x.cover.meets cover = false) → (∀ x ∈ s.sessions, x.cover.isSlide = false) →
      (∀ users m n, s.supply.allotments = [⟨.pump users, m, n⟩] → short →
        ask = .next (answered l 0x04 { status := .ok } { outAway s with
          sessions := s.sessions ++ [session true s]
          supply := { s.supply with allotments := [⟨.pump (users ++ [cover]), m, n⟩] }
          jacks := upd s.jacks j moving
          drive := valves s.drive }))
      ∧ (∀ (n : Nat) (q : QueueEntry), s.supply.queue[n]? = some q → pumpAllotted s = false → q.holder.isPump = true →
        (∀ (m : Nat) (r : QueueEntry), s.supply.queue[m]? = some r → m ≠ n → r.holder.isPump = false) →
        ask = .next (answered l 0x04 { status := .queued } { s with
          sessions := s.sessions ++ [session false s]
          supply := { s.supply with
            queue := s.supply.queue.set n { q with holder := .pump (q.holder.sessions ++ [cover]) } } }))
      ∧ (pumpAllotted s = false → pumpQueued s = false →
        (budget s < amps → no)
        ∧ (amps ≤ budget s → ¬(amps ≤ remainder s ∧ s.supply.queue = []) →
          (8 ≤ s.supply.queue.length → no)
          ∧ (s.supply.queue.length < 8 → ask = .next (answered l 0x04 { status := .queued } { s with
            sessions := s.sessions ++ [session false s]
            supply := { s.supply with queue := s.supply.queue ++ [⟨.pump [cover], amps, s.now⟩] } })))))
    ∧ ∀ x : Session, s.sessions = [x] → x.cover = cover → x.owner = .link l → x.origin = .link → x.creep = false →
      let driven := s.drive[extendValve j].applied ≠ 0 ∨ s.drive[retractValve j].applied ≠ 0
      let closed := upd (upd s.drive (extendValve j) (written 0)) (retractValve j) (written 0)
      (x.dir = some d.flip →
        (x.phase = .waiting →
          ask = .next (answered l 0x04 { status := .ok } { s with sessions := [reversed d .hold s x] }))
        ∧ (x.phase = .running → short → ask = .next (answered l 0x04 { status := .ok } { outAway s with
          sessions := [reversed d .hold s x], jacks := upd s.jacks j moving, drive := valves s.drive }))
        ∧ (x.phase = .running → ¬short → driven → ask = .next (answered l 0x04 { status := .ok } { outAway s with
          sessions := [stoppingWith .done s.now (reversed d .hold s x)], jacks := upd s.jacks j moving, drive := closed })))
      ∧ ∀ w : Word, x.dir = some d → x.kind = .hold → x.phase = .running →
        let goal := min w.toNat s.settings.maxStroke[j]
        let aimed := { x with target := some goal, keepDue := some (s.now + ms s.settings.keepWindow) }
        let reply := if s.settings.maxStroke[j] < w.toNat then Status.clamped else .ok
        let retargeted := fun u : State =>
          exec (.move l (.jack j) d k (some w)) s = .next (answered l 0x04 { status := reply } u)
        let ahead := match d with
          | .outward => jackStroke j s < goal ∧ goal ≤ jackStroke j s + 3
          | .inward => goal < jackStroke j s ∧ jackStroke j s ≤ goal + 3
        let beyond := match d with
          | .outward => jackStroke j s + 3 < goal
          | .inward => goal + 3 < jackStroke j s
        (beyond → retargeted { s with sessions := [aimed] })
        ∧ (ahead → driven → retargeted { s with sessions := [stoppingWith .done s.now aimed], drive := closed }))

/-- 07 R107, R108, R110, 04 R68, 05 R76 to R83, 06 R97, R98: LEVEL whose checks pass begins a run of at most 4 passes in
TOUCHDOWN. Where the current is there it takes the pump's allotment and extends every jack that is not in CONTACT; where the
pump must wait it is QUEUED, and beyond the budget or the queue NO_SUPPLY. Said of a part at rest with some jack off the
ground, and of a part without jack sessions that is not HOLDING. -/
def Obligations.LevelBeginsTouchdown : Prop :=
  ∀ (l : Link) (s : State),
    Hears l s → s.control.mode = .ready → permits l .moveJack s = true →
    chassisCondition s = .parked → s.control.settingsDefaulted = false →
    (∀ j : Jack, s.jacks[j].fault.kind = none) → s.pumpFault.kind = none →
    attitudeValid s = true → tooSteep s = false →
    let starts := fun j : Jack => decide (s.jacks[j].state ≠ .contact ∧ s.jacks[j].state ≠ .extending)
    let session := fun running : Bool =>
      { cover := Cover.allJacks, op := .level, owner := .link l, origin := .link, kind := .oneTouch, dir := none
        target := none, creep := false, jogged := false, phase := if running then Phase.running else .waiting
        keepDue := none
        runLimit := seconds 60, runLeft := seconds 60, runFrom := if running then some s.now else none
        pendingEnd := none : Session }
    let begun := { s.level with
      state := .touchdown, passLimit := 4, outcome := .none, passes := 0, residualPitch := 0, residualRoll := 0
      clamped := false }
    let amps := s.settings.pumpAmps
    let no := exec (.level l) s = .next (answered l 0x05 { status := .noSupply } s)
    (AtRest s → DriveAwayAgrees s → amps ≤ budget s → jacksAllContact s = false →
      ∃ t, exec (.level l) s = .next (answered l 0x05 { status := .ok } t)
        ∧ t.sessions = [session true]
        ∧ t.supply = { s.supply with
            allotments := [⟨.pump [.allJacks], amps, some s.supply.nextOrder⟩]
            nextOrder := s.supply.nextOrder + 1 }
        ∧ t.level = begun
        ∧ (∀ j : Jack, t.jacks[j] = { s.jacks[j] with state := if starts j then .extending else s.jacks[j].state }
            ∧ t.drive[extendValve j] = { s.drive[extendValve j] with
                buffered := if starts j then some 600 else s.drive[extendValve j].buffered }
            ∧ t.drive[retractValve j] = { s.drive[retractValve j] with
                buffered := if starts j then some 0 else s.drive[retractValve j].buffered })
        ∧ t.drive[pumpOutput] = { s.drive[pumpOutput] with buffered := some 1000 }
        ∧ (∀ o : Output, o.val < 10 → t.drive[o] = s.drive[o])
        ∧ t = { s with
            sessions := t.sessions, supply := t.supply, level := t.level, jacks := t.jacks, drive := t.drive })
    ∧ ((∀ x ∈ s.sessions, x.cover.isJacks = false) → s.level.state ≠ .holding →
      pumpAllotted s = false → pumpQueued s = false →
      (budget s < amps → no)
      ∧ (amps ≤ budget s → ¬(amps ≤ remainder s ∧ s.supply.queue = []) →
        (8 ≤ s.supply.queue.length → no)
        ∧ (s.supply.queue.length < 8 → exec (.level l) s = .next (answered l 0x05 { status := .queued } { s with
            sessions := s.sessions ++ [session false], level := begun
            supply := { s.supply with queue := s.supply.queue ++ [⟨.pump [.allJacks], amps, s.now⟩] } }))))

/-- 07 R127, 04 R68, 01 R18, 05 R80, R83, 06 R97, R98: JACKS_UP whose checks pass is RETRACTING, ONE_TOUCH, or HOLD while a
jack's fault is active. Where the current is there every jack not STOWED has its retract valve opened, with the 1000 that
is the model's (log 55); where the pump must wait it is QUEUED, and beyond the budget or the queue NO_SUPPLY. Said of a
part at rest with some jack down, and of a part without jack sessions that is not HOLDING. -/
def Obligations.JacksUpBeginsRetracting : Prop :=
  ∀ (l : Link) (s : State),
    Hears l s → s.control.mode = .ready → permits l .moveJack s = true →
    chassisCondition s ≠ .travel → s.pumpFault.kind = none → supportSlidesStowed s = true →
    let kind : Kind := if anyJackFaulted s then .hold else .oneTouch
    let starts := fun j : Jack => decide (s.jacks[j].state ≠ .stowed)
    let session := fun running : Bool =>
      { cover := Cover.allJacks, op := .jacksUp, owner := .link l, origin := .link, kind := kind, dir := some .inward
        target := none, creep := false, jogged := false, phase := if running then Phase.running else .waiting
        keepDue := if kind = .hold then some (s.now + ms s.settings.keepWindow) else none
        runLimit := seconds 90, runLeft := seconds 90, runFrom := if running then some s.now else none
        pendingEnd := none : Session }
    let amps := s.settings.pumpAmps
    let no := exec (.jacksUp l) s = .next (answered l 0x06 { status := .noSupply } s)
    (AtRest s → DriveAwayAgrees s → amps ≤ budget s → (∃ j : Jack, s.jacks[j].state ≠ .stowed) →
      ∃ t, exec (.jacksUp l) s = .next (answered l 0x06 { status := .ok } t)
        ∧ t.sessions = [session true]
        ∧ t.supply = { s.supply with
            allotments := [⟨.pump [.allJacks], amps, some s.supply.nextOrder⟩]
            nextOrder := s.supply.nextOrder + 1 }
        ∧ t.level = { s.level with state := .retracting }
        ∧ (∀ j : Jack, t.jacks[j] = { s.jacks[j] with state := if starts j then .retracting else .stowed }
            ∧ t.drive[extendValve j] = { s.drive[extendValve j] with
                buffered := if starts j then some 0 else s.drive[extendValve j].buffered }
            ∧ t.drive[retractValve j] = { s.drive[retractValve j] with
                buffered := if starts j then some 1000 else s.drive[retractValve j].buffered })
        ∧ t.drive[pumpOutput] = { s.drive[pumpOutput] with buffered := some 1000 }
        ∧ (∀ o : Output, o.val < 10 → t.drive[o] = s.drive[o])
        ∧ t = { s with
            sessions := t.sessions, supply := t.supply, level := t.level, jacks := t.jacks, drive := t.drive })
    ∧ ((∀ x ∈ s.sessions, x.cover.isJacks = false) → s.level.state ≠ .holding →
      pumpAllotted s = false → pumpQueued s = false →
      (budget s < amps → no)
      ∧ (amps ≤ budget s → ¬(amps ≤ remainder s ∧ s.supply.queue = []) →
        (8 ≤ s.supply.queue.length → no)
        ∧ (s.supply.queue.length < 8 → exec (.jacksUp l) s = .next (answered l 0x06 { status := .queued } { s with
            sessions := s.sessions ++ [session false], level := { s.level with state := .retracting }
            supply := { s.supply with queue := s.supply.queue ++ [⟨.pump [.allJacks], amps, s.now⟩] } }))))

/-- 04 R57, R58, R60, R62, 05 R76 to R83, 01 R18, 09 R159, 11 R184: a MOVE is turned away without permission, with
BAD_STATE in SERVICE from another link than the owner and as a JOG in READY, when another owner's session or one that is
STOPPING covers its channel, with BAD_ARG when its target on a homed channel lies at or behind the present position, a
retarget's too, as a reversal when the session is creep-limited, and, new without a target or as a reversal, by the
first check of R77 that fails; nothing else changes. Said of SLIDE_MOVING for an EXTEND without a target. LEVEL and
JACKS_UP are turned away likewise, with BUSY while any jack is covered, and by the checks that concern them, in their
order. -/
def Obligations.MoveIsTurnedAway : Prop :=
  ∀ (l : Link) (c : Channel) (d : Dir) (k : KindAsked) (target : Option Word) (s : State), Hears l s →
    let turned := fun rep : Reply => exec (.move l c d k target) s = .next (answered l 0x04 rep s)
    let no := fun r : Reason => ({ status := .refused, reason := some r } : Reply)
    let foreign := s.control.mode = .service ∧ s.control.serviceOwner ≠ some l
    let misplaced := foreign ∨ s.control.mode = .ready ∧ k = .jog
    let untargeted := target = none ∨ k = .jog
    let isJack := ∃ j : Jack, c = .jack j
    let outward := d = .outward
    (permits l (movePermission c) s = false → turned { status := .notPermitted })
    ∧ (permits l (movePermission c) s = true → misplaced → turned { status := .badState })
    ∧ (permits l (movePermission c) s = true → ¬misplaced →
      let checked :=
        if c.isAwning = true ∧ d = .inward then True
        else if chassisCondition s = .travel then turned (no .travel)
        else if outward ∧ chassisCondition s = .unknown then turned (no .chassisUnknown)
        else if outward ∧ chassisCondition s = .unparked then turned (no .notParked)
        else if outward ∧ s.control.settingsDefaulted = true then turned (no .configDefaulted)
        else if outward ∧ (faultOf (.channel c) s).kind ≠ none ∨ isJack ∧ s.pumpFault.kind ≠ none then
          turned (no .faulted)
        else if outward ∧ k ≠ .jog ∧ homed c s = false then turned (no .unhomed)
        else if c.isAwning = true ∧ s.wind.lockoutDue ≠ none then turned (no .windLockout)
        else if ∃ i : Slide, c = .slide i ∧ outward ∧ s.settings.support[i] = true
            ∧ (∃ j : Jack, s.jacks[j].state ≠ .contact) ∧ s.level.state ≠ .holding then turned (no .noSupport)
        else if isJack ∧ d = .inward ∧ ∃ i : Slide, s.settings.support[i] = true ∧ s.slides[i].state ≠ .stowed then
          turned (no .slidesOut)
        else if ∃ (i : Slide) (a : Awning), c = .slide i ∧ inConflict i a s = true ∧ (s.awnings[a].homed = false
            ∨ s.settings.clearance[a] < awningPosition a s
            ∨ ∃ y, sessionOn (.awning a) s = some y ∧ y.dir = some .outward
              ∧ ∀ n, y.target = some n → s.settings.clearance[a] < n) then turned (no .awningClear)
        else (∃ (a : Awning) (i : Slide), c = .awning a ∧ untargeted ∧ inConflict i a s = true
          ∧ sessionOn (.slide i) s ≠ none) → turned (no .slideMoving)
      let behind := ∃ w, target = some w ∧ match d with
        | .outward => min w.toNat (channelEnd c s) ≤ position c s
        | .inward => position c s ≤ min w.toNat (channelEnd c s)
      (∀ x, sessionOn c s = some x →
        (x.owner ≠ .link l → turned { status := .busy })
        ∧ (x.phase = .stopping → turned { status := .busy })
        ∧ (x.owner = .link l → x.origin = .link → x.phase ≠ .stopping → x.cover = .one c →
          (x.dir = some d → x.kind ≠ .jog → homed c s = true → behind → turned { status := .badArg })
          ∧ (x.dir = some d.flip → x.creep = true → turned (no .faulted))
          ∧ (x.dir = some d.flip → x.creep = false → checked)))
      ∧ (sessionOn c s = none → untargeted → checked)
      ∧ (sessionOn c s = none → k ≠ .jog → homed c s = true → behind → turned { status := .badArg }))
    ∧ (let level := fun rep : Reply => exec (.level l) s = .next (answered l 0x05 rep s)
      let up := fun rep : Reply => exec (.jacksUp l) s = .next (answered l 0x06 rep s)
      (permits l .moveJack s = false → level { status := .notPermitted } ∧ up { status := .notPermitted })
      ∧ (permits l .moveJack s = true → foreign → level { status := .badState } ∧ up { status := .badState })
      ∧ (permits l .moveJack s = true → ¬foreign → (∃ x ∈ s.sessions, x.cover.isJacks = true) →
        level { status := .busy } ∧ up { status := .busy })
      ∧ (permits l .moveJack s = true → ¬foreign → (∀ x ∈ s.sessions, x.cover.isJacks = false) →
        (if chassisCondition s = .travel then level (no .travel)
          else if chassisCondition s = .unknown then level (no .chassisUnknown)
          else if chassisCondition s = .unparked then level (no .notParked)
          else if s.control.settingsDefaulted = true then level (no .configDefaulted)
          else if s.pumpFault.kind ≠ none ∨ (∃ j : Jack, s.jacks[j].fault.kind ≠ none) then level (no .faulted)
          else if attitudeValid s = false then level (no .sensorInvalid)
          else tooSteep s = true → level (no .tooSteep))
        ∧ (if chassisCondition s = .travel then up (no .travel)
          else if s.pumpFault.kind ≠ none then up (no .faulted)
          else (∃ i : Slide, s.settings.support[i] = true ∧ s.slides[i].state ≠ .stowed) → up (no .slidesOut))))

/-- 04 R66, R70, R71, R72, 10 R172, 06 R103, 08 R137, 03 R40, R42: STOP ALL leaves no session, each ended STOPPED or with its
pending code, asks one posture store and suspends a RUNNING run (the order of suspension and ends is the model's, log 54);
said where no relevel waits. STOP of the only session, a link's RUNNING slide, forces its outputs to zero, ends it STOPPED
and returns its current; a STOP of a channel without a session changes nothing. -/
def Obligations.StopEndsSessions : Prop :=
  ∀ (l : Link) (i : Slide) (s : State), Hears l s →
    (s.level.deferred = false →
      ∃ t, exec (.stop l .all) s = .next t
        ∧ t.sessions = [] ∧ t.links = upd s.links l (replying 0x03 { status := .ok })
        ∧ (s.program.run = none → t.program = s.program)
        ∧ (∀ r, s.program.run = some r → ∃ r', t.program.run = some r' ∧ r'.suspended = true
            ∧ r'.reason = if r.suspended then r.reason else some .stopped)
        ∧ (OneSessionEach s → ∀ x ∈ s.sessions,
            (∀ c ∈ x.cover.channels, lastEndOf c t
              = some ⟨if x.phase = .stopping then x.pendingEnd.getD .stopped else .stopped, none, x.owner, x.op⟩)
            ∧ (x.phase ≠ .waiting → ∀ o ∈ outputsOfCover x.cover, t.drive[o] = forced s.drive[o]))
        ∧ (t.memory = if s.sessions = [] then s.memory else storeAsked .posture { t with memory := s.memory })
        ∧ (s.sessions ≠ [] → ∀ k : Link, (t.events[k].pending).getLsbD 1 = true)
        ∧ t.settings = s.settings ∧ t.sampler = s.sampler ∧ t.control.mode = s.control.mode)
    ∧ (∀ c : Channel, sessionOn c s = none →
      exec (.stop l (.one c)) s = .next (answered l 0x03 { status := .ok } s))
    ∧ ∀ x : Session, s.sessions = [x] → x.cover = .one (.slide i) → x.op = .move → x.origin = .link →
      x.phase = .running → s.program.run = none → s.level.deferred = false → s.supply.queue = [] →
      pumpAllotted s = false →
      ∃ t, exec (.stop l (.one (.slide i))) s = .next t
        ∧ t.sessions = []
        ∧ t.supply = { s.supply with
            allotments := s.supply.allotments.filter (fun y => decide (y.holder ≠ .session x.cover)) }
        ∧ t.slides[i] = { s.slides[i] with
            seating := .none, lastFront := 0, lastRear := 0, state := slideRest i s
            lastEnd := some ⟨.stopped, none, x.owner, .move⟩ }
        ∧ (∀ o : Output, t.drive[o] = if o = frontOutput i ∨ o = rearOutput i then forced s.drive[o] else s.drive[o])
        ∧ (∀ p : Hall, t.pulse.inputs[p] = if p = frontHall i ∨ p = rearHall i
            then coasting s.drive[servingOutput p] s.now s.pulse.inputs[p] else s.pulse.inputs[p])
        ∧ (∀ k : Slide, k ≠ i → t.slides[k] = s.slides[k])
        ∧ t.memory = storeAsked .posture { t with memory := s.memory }
        ∧ (∀ k : Link, (t.events[k].pending).getLsbD 1 = true)
        ∧ t.control = heardControl l { s with sessions := [] }
        ∧ t.links = upd s.links l (replying 0x03 { status := .ok })
        ∧ t = { s with
            control := t.control, links := t.links, events := t.events, drive := t.drive
            pulse := { s.pulse with inputs := t.pulse.inputs }, sessions := [], slides := t.slides
            interlock := { s.interlock with driveAway := t.interlock.driveAway, alarm := t.interlock.alarm }
            supply := t.supply, memory := t.memory }

/-- 08 R136: the leading motor of a slide is trimmed, never below 200; the lagging motor runs at the base duty, both do
at a skew of 8 or less, and a seated motor is held at 0. -/
def Obligations.TrimSlowsTheLeadingMotor : Prop :=
  ∀ (m : Motor) (base : Nat) (d : Dir) (skew : Int),
    let leads := match d with
      | .outward => if 0 < skew then Motor.front else .rear
      | .inward => if 0 < skew then Motor.rear else .front
    motorDuty m base d skew .none = (if skew.natAbs ≤ 8 then base
      else if m = leads then max 200 (base - (skew.natAbs - 8) * 6) else base)
    ∧ ∀ (seated : Motor) (due : Nat), motorDuty m base d skew (.oneSeated seated due) = if m = seated then 0 else base

/-! ### Program runs -/

/-- 10 R163, R166, R167, R172, R176, R177: RUN_PROGRAM, in the order of its checks. A program's chain is the walk along
its next fields, at most 16 steps without a repeat; a run whose first step is a CONFIRM stands SUSPENDED at it; a first
slide step whose checks pass is RUNNING at once, with its partner if the pair is honoured and both currents fit. In an
active pair a segment report of the later slide, which runs, pauses its step and ends its session STOPPED if the supply, a
skew or the first slide does not hold. Of slide steps, said of a part at rest and of steps that no end skips. -/
def Obligations.RunProgramBegins : Prop :=
  ∀ (l : Link) (number : Byte) (s : State), Hears l s →
    let answer := fun rep : Reply => exec (.runProgram l number) s = .next (answered l 0x08 rep s)
    (permits l .sequence s = false → answer { status := .notPermitted })
    ∧ (permits l .sequence s = true → s.control.mode = .service → answer { status := .badState })
    ∧ (permits l .sequence s = true → s.control.mode = .ready →
      (4 ≤ number.toNat → answer { status := .badArg })
      ∧ (number.toNat < 4 → s.program.run ≠ none → answer { status := .busy })
      ∧ ∀ p : Fin 4, p.val = number.toNat → s.program.run = none →
        (∀ chain : List StepIndex, chainOf p s = some chain ↔ chain ≠ [] ∧ chain.head? = s.settings.programs[p]
          ∧ chain.length ≤ 16 ∧ chain.Nodup
          ∧ ∀ (n : Nat) (k : StepIndex), chain[n]? = some k → s.settings.pool[k].next = chain[n + 1]?)
        ∧ (chainOf p s = none → answer { status := .badProgram })
        ∧ ∀ k rest, chainOf p s = some (k :: rest) →
          let record := fun (steps : List RunStep) (pair : Option Nat) =>
            { program := p, owner := l, suspended := false, steps := steps, reason := none
              keepDue := s.now + ms s.settings.keepWindow, pair := pair, pairWaits := false
              suspendOwed := false : RunRecord }
          let runs := fun (r : RunRecord) (u : State) => exec (.runProgram l number) s
            = .next (answered l 0x08 { status := .ok } { u with program := { s.program with run := some r } })
          let waiting := fun ks : List StepIndex => ks.map fun k => RunStep.mk k .pending
          (s.settings.pool[k].kind = .confirm →
            runs { record (waiting (k :: rest)) none with suspended := true, reason := some .confirm }
              { s with events := posted .programHalt s })
          ∧ ∀ (i : Slide) (d : Dir), IsSlideStep k i d s → AtRest s → DriveAwayAgrees s → SlideMayMove i d s →
            s.settings.slideAmps ≤ budget s → (slideSkew i s).natAbs ≤ 8 →
            let first := withSlide i d (stepSession k i d l s) s
            let alone := runs (record (⟨k, .running⟩ :: waiting rest) none) (outAway first)
            (s.settings.pool[k].pairNext = false ∨ ¬PairSupply s ∨ s.slides[i].homed = false ∨ rest = [] → alone)
            ∧ ∀ (m : StepIndex) (j : Slide), rest.head? = some m → IsSlideStep m j d s → j ≠ i → SlideMayMove j d s →
              s.settings.pool[k].pairNext = true → PairSupply s →
              s.slides[i].homed = true → s.slides[j].homed = true → (slideSkew j s).natAbs ≤ 8 →
              if 2 * s.settings.slideAmps ≤ budget s
              then runs (record (⟨k, .running⟩ :: ⟨m, .running⟩ :: waiting rest.tail) (some 0))
                (outAway (withSlide j d (stepSession m j d l s) first))
              else alone)
    ∧ ∀ (pos : Nat) (r : RunRecord) (a b : RunStep) (i j : Slide) (x : Session),
      s.program.run = some r → r.pair = some pos → r.steps[pos]? = some a → r.steps[pos + 1]? = some b →
      s.settings.pool[a.index].pairNext = true → s.settings.pool[a.index].kind = s.settings.pool[b.index].kind →
      s.settings.pool[a.index].kind = .slideOut ∨ s.settings.pool[a.index].kind = .slideIn →
      s.settings.pool[a.index].channel = some (.slide i) → s.settings.pool[b.index].channel = some (.slide j) → i ≠ j →
      sessionOn (.slide j) s = some x → x.phase = .running →
      let runsOn := PairSupply s ∧ (slideSkew i s).natAbs ≤ 60 ∧ (slideSkew j s).natAbs ≤ 60
        ∧ (sessionOn (.slide i) s).map (·.phase) = some .running
      let t := segmentReport j s
      (runsOn → t = s)
      ∧ (¬runsOn → t.sessions = s.sessions.filter (fun y => decide (y.cover ≠ x.cover))
        ∧ lastEndOf (.slide j) t = some ⟨.stopped, none, x.owner, x.op⟩
        ∧ t.drive[frontOutput j] = forced s.drive[frontOutput j]
        ∧ t.drive[rearOutput j] = forced s.drive[rearOutput j]
        ∧ t.program = { s.program with run := some { r with
            pair := none, steps := r.steps.set (pos + 1) { b with status := .paused } } })

/-- 10 R167, R168, R170, R173, R174, R175: RESUME and SKIP_STEP, in the order of their checks. RESUME starts the current
slide step again, or leaves it FAILED and the run SUSPENDED with the reason that refuses it. At the last step of a chain
RESUME of a CONFIRM makes it DONE, SKIP_STEP skips any step, and the run is complete. ABORT from any link with SEQUENCE
removes the run and ends the sessions of its steps STOPPED, forced at once. Said where no relevel waits, of a slide step
without a partner, of RESUME's start where no session exists, and of ABORT where none but the run's steps' do. -/
def Obligations.RunRequestsEndTheRun : Prop :=
  ∀ (l : Link) (s : State), Hears l s →
    let turned := fun rep : Reply => exec (.resume l) s = .next (answered l 0x09 rep s)
      ∧ exec (.skipStep l) s = .next (answered l 0x0A rep s)
    let ended := fun o : RunOutcome => { s with program := ⟨none, o⟩, events := posted .programEnd s }
    (permits l .sequence s = false → turned { status := .notPermitted }
      ∧ exec (.abort l) s = .next (answered l 0x0B { status := .notPermitted } s))
    ∧ (permits l .sequence s = true → s.program.run = none → turned { status := .badState }
      ∧ exec (.abort l) s = .next (answered l 0x0B { status := .badState } s))
    ∧ (∀ r, permits l .sequence s = true → s.program.run = some r →
      (r.owner ≠ l → turned { status := .notPermitted })
      ∧ (r.owner = l → s.control.mode = .service ∨ r.suspended = false → turned { status := .badState })
      ∧ (r.owner = l → s.control.mode = .ready → r.suspended = true →
        (∃ x ∈ r.steps, x.status = .running) → turned { status := .busy })
      ∧ (∀ (pos : Nat) (x : RunStep), r.owner = l → s.control.mode = .ready → r.suspended = true →
        s.level.deferred = false →
        r.steps[pos]? = some x → x.status ∈ [StepStatus.pending, .interrupted, .failed, .paused] →
        (∀ (n : Nat) (y : RunStep), r.steps[n]? = some y → n ≠ pos → y.status = .done ∨ y.status = .skipped) →
        (s.settings.pool[x.index].kind = .confirm →
          exec (.resume l) s = .next (answered l 0x09 { status := .ok } (ended .completed)))
        ∧ exec (.skipStep l) s = .next (answered l 0x0A { status := .ok } (ended .completed)))
      ∧ (∀ (pos : Nat) (x : RunStep) (i : Slide) (d : Dir), r.owner = l → s.control.mode = .ready →
        r.suspended = true → s.sessions = [] → s.supply.allotments = [] → s.supply.queue = [] →
        s.level.deferred = false → DriveAwayAgrees s →
        r.steps[pos]? = some x → x.status ∈ [StepStatus.pending, .interrupted, .failed, .paused] →
        (∀ (n : Nat) (y : RunStep), r.steps[n]? = some y → y.status ≠ .running
          ∧ (n < pos → y.status = .done ∨ y.status = .skipped)) →
        IsSlideStep x.index i d s → s.settings.pool[x.index].pairNext = false →
        let gone := fun (st : StepStatus) (why : Option SuspendReason) => { s.program with run := some { r with
          suspended := why.isSome, reason := why, steps := r.steps.set pos { x with status := st }
          keepDue := s.now + ms s.settings.keepWindow, pairWaits := false, suspendOwed := false } }
        (SlideMayMove i d s → s.settings.slideAmps ≤ budget s → (slideSkew i s).natAbs ≤ 8 →
          exec (.resume l) s = .next (answered l 0x09 { status := .ok }
            { outAway (withSlide i d (stepSession x.index i d l s) s) with program := gone .running none }))
        ∧ (chassisCondition s = .travel →
          exec (.resume l) s = .next (answered l 0x09 { status := .ok }
            { s with program := gone .failed (some (.refused .travel)), events := posted .programHalt s })))
      ∧ (s.sessions = [] → s.level.deferred = false →
        exec (.abort l) s = .next (answered l 0x0B { status := .ok } (ended .aborted)))
      ∧ (s.sessions ≠ [] → (∀ x ∈ s.sessions, ∃ k, x.origin = .step k) → OneSessionEach s → s.level.deferred = false →
        ∃ t, exec (.abort l) s = .next t
          ∧ t.sessions = [] ∧ t.program = ⟨none, .aborted⟩ ∧ t.links = upd s.links l (replying 0x0B { status := .ok })
          ∧ (∀ x ∈ s.sessions, ∀ c ∈ x.cover.channels,
              lastEndOf c t = some ⟨if x.phase = .stopping then x.pendingEnd.getD .stopped else .stopped, none, x.owner, x.op⟩)
          ∧ (∀ o : Output, o ≠ pumpOutput → t.drive[o]
              = if ∃ x ∈ s.sessions, x.phase ≠ .waiting ∧ o ∈ outputsOfCover x.cover then forced s.drive[o] else s.drive[o])
          ∧ (∀ y ∈ t.supply.allotments, ∀ x ∈ s.sessions, x.cover ∉ y.holder.sessions)
          ∧ (∀ k : Link, (t.events[k].pending).getLsbD 1 = true ∧ (t.events[k].pending).getLsbD 8 = true)
          ∧ t.memory = storeAsked .posture { t with memory := s.memory }
          ∧ t.settings = s.settings ∧ t.sampler = s.sampler ∧ t.wind = s.wind ∧ t.control.mode = s.control.mode))

/-! ### The sampler -/

/-- 02 R20, R22, R23, R24, R25: the published value of a slot from its conversions: the signed sum divided by their
number, scaled, offset and limited, checked against the window, and limited to the range of the slot's role. -/
def Obligations.SlotValueFromConversions : Prop :=
  ∀ (slot : Slot) (c : SlotSettings) (raw : Vector (BitVec 12) 32),
    let sum := ((List.range c.conversions).map fun k =>
      (if c.signs.getLsbD (3 - k % 4) then -1 else 1) * ((raw.toList.getD k 0).toNat : Int)).sum
    let value := max (-32000) (min 32000 ((sum.tdiv c.conversions * c.gain).tdiv 1024 + c.offset))
    let lo : Int := if slot.val < 2 then -1500 else 0
    let hi : Int := if slot.val < 2 then 1500 else if slot.val < 8 then 2500 else if slot.val < 14 then 3500
      else if slot.val = 14 then 2000 else 2500
    slotValue slot c raw
      = if c.enabled = true ∧ c.windowMin ≤ value ∧ value ≤ c.windowMax then some (max lo (min hi value)) else none

/-- 02 R19, R21, R25, R26, R28, R29, R31, R32, 01 R4, R11, R14, 06 R92, R93, 07 R117 to R121: a completed frame acts on
every slot by its value or its held frame, on its exceedance counter, and, with both tilt slots valid after it, on the
attitude filter; a third out-of-window value and the pump's trip are occurrences; a stopped jack whose contact has
changed or whose stroke was published takes its stopped state; a supply value counts toward a dwell; the next frame
takes the present settings. Said for a part at rest, not in HOLDING. The frame's length is a choice (log 24), as is
which flags hold the filter (log 44). Of a level run in LIFT: a jack that publishes a stroke within 3 of its target
stops, and the last one leads to RECONTACT; of the others those 150 ahead of the least progress are held, until within
75; an error grown by more than 100 is a TILT_GUARD of every jack still moving, said where none stops. Said where every
slot publishes, and none trips or moves the supply. -/
def Obligations.FrameUpdatesSlots : Prop :=
  ∀ (raw : RawFrame) (s : State), Settled s → s.sampler.running = true →
    let now := max s.now (s.sampler.frameStart + ms 10)
    let value := fun slot : Slot => slotValue slot s.sampler.inForce[slot] raw[slot]
    let lost := fun slot : Slot => value slot = none ∧ s.sampler.slots[slot].outCount = 2
    let filtered := fun (valid : Bool) (slot : Slot) (f : TiltFilter) => match value slot with
      | some v => if valid = true then TiltFilter.mk (if f.seeded then f.value + (v - f.value).tdiv 8 else v) true else f
      | none => { f with seeded := f.seeded && decide (s.sampler.slots[slot].outCount ≠ 2) }
    let occurred := fun (k : FaultKind) (r : FaultRec) =>
      FaultRec.mk (some (r.kind.getD k)) r.kind.isSome (Vector.replicate 4 false)
    let sensed := fun (slot : Slot) (r : FaultRec) => if lost slot then occurred .sensor r else r
    let counted := fun v : Int =>
      let below := (lowerThreshold s.supply.state).any fun x => decide (v < x)
      let above := (riseThreshold s.supply.state).any fun x => decide (x ≤ v)
      if below then (s.supply.fallCount + 1, 0) else if above then (0, s.supply.riseCount + 1) else (0, 0)
    (AtRest s → s.level.state = .idle → ∃ t, exec (.samplerFrameComplete raw) s = .next t
      ∧ let newTrip := t.sampler.slots[pumpSlot].tripped && !s.sampler.slots[pumpSlot].tripped
      (∀ slot : Slot,
        let c := s.sampler.inForce[slot]
        let r := s.sampler.slots[slot]
        t.sampler.slots[slot] = match value slot with
          | some v =>
            { lastValid := v, sampleValid := true, outCount := 0
              counter := if hasExceedance slot = false then r.counter
                else if c.threshold ≤ v then min c.tripCount (r.counter + 1) else 0
              tripped := if hasExceedance slot = false then r.tripped
                else if c.threshold ≤ v then r.tripped || decide (c.tripCount ≤ r.counter + 1)
                else if c.release ≤ v then r.tripped else false }
          | none => { r with
              outCount := min 3 (r.outCount + 1), sampleValid := r.sampleValid && decide (r.outCount ≠ 2) })
      ∧ t.sampler = { s.sampler with
          frameStart := now, inForce := s.settings.slots, slots := t.sampler.slots
          pitch := filtered (attitudeValid t) 0 s.sampler.pitch
          roll := filtered (attitudeValid t) 1 s.sampler.roll }
      ∧ t.level = { s.level with
          drift := if attitudeValid s = true ∧ attitudeValid t = false then 0 else s.level.drift }
      ∧ (∀ j : Jack, t.jacks[j] = { s.jacks[j] with
          fault := sensed (strokeSlot j) (sensed (pressureSlot j) s.jacks[j].fault)
          state := if s.jacks[j].state ≠ .extending ∧ s.jacks[j].state ≠ .retracting
              ∧ (contact j t ≠ contact j s ∨ value (strokeSlot j) ≠ none)
            then jackRest j t else s.jacks[j].state })
      ∧ t.pumpFault = (if newTrip = true
          then occurred .overcurrent s.pumpFault else sensed 15 s.pumpFault)
      ∧ t.supply = (match value 14 with
        | some v =>
          let c := counted v
          if 50 ≤ c.1 then { s.supply with state := stateBelow s.supply.state, fallCount := 0, riseCount := 0 }
          else if 50 ≤ c.2 then { s.supply with state := stateAbove s.supply.state, fallCount := 0, riseCount := 0 }
          else { s.supply with fallCount := c.1, riseCount := c.2 }
        | none => if supplyValid t = true then s.supply else { s.supply with fallCount := 0, riseCount := 0 })
      ∧ t.interlock = { s.interlock with driveAway := t.interlock.driveAway, alarm := t.interlock.alarm }
      ∧ (∀ l : Link, t.events[l].enable = s.events[l].enable ∧ ∀ n : Nat, n ≠ 9 →
          ((t.events[l].pending).getLsbD n = ((s.events[l].pending).getLsbD n
            || (decide (n = 2) && (newTrip || allSlots.any fun slot => decide (2 ≤ slot.val ∧ slot ≠ 14 ∧ lost slot)))
            || decide (n = 10 ∧ t.supply.state ≠ s.supply.state))))
      ∧ (chassisMoving s = false → ∀ l : Link, (t.events[l].pending).getLsbD 9 = (s.events[l].pending).getLsbD 9)
      ∧ (s.interlock.driveAway = false → t.interlock.driveAway = true → ∀ l : Link, (t.events[l].pending).getLsbD 9 = true)
      ∧ t = { s with
          now := now, sampler := t.sampler, level := t.level, jacks := t.jacks, pumpFault := t.pumpFault
          supply := t.supply, events := t.events, interlock := t.interlock })
    ∧ ∀ x : Session, s.control.mode = .ready → s.sessions = [x] → x.cover = .allJacks → x.op = .level → x.origin = .link →
      x.phase = .running → s.level.state = .lift → s.program.run = none → s.level.deferred = false →
      chassisMoving s = false → s.interlock.driveAway = false →
      (∀ slot : Slot, value slot ≠ none) → (∀ v, value 15 = some v → v < s.sampler.inForce[(15 : Slot)].threshold) →
      (∀ v, value 14 = some v → (counted v).1 < 50 ∧ (counted v).2 < 50) →
      let stroke := fun j : Jack => (value (strokeSlot j)).getD 0
      let stops := fun j : Jack => s.level.plan[j].moving = true ∧ (s.level.plan[j].target : Int) ≤ stroke j + 3
      let left := fun j : Jack => s.level.plan[j].moving = true ∧ ¬(s.level.plan[j].target : Int) ≤ stroke j + 3
      let progress := fun j : Jack =>
        min 1000 ((((stroke j).toNat - s.level.plan[j].start : Int) * 1000).tdiv s.level.plan[j].planned)
      let grown := fun t : State => s.level.basePitch + 100 < (t.sampler.pitch.value - s.level.guardPitch).natAbs
        ∨ s.level.baseRoll + 100 < (t.sampler.roll.value - s.level.guardRoll).natAbs
      ∃ t, exec (.samplerFrameComplete raw) s = .next t
        ∧ t.sampler.pitch = filtered true 0 s.sampler.pitch ∧ t.sampler.roll = filtered true 1 s.sampler.roll
        ∧ (¬grown t → (∃ j : Jack, s.level.plan[j].moving = true) → (∀ j : Jack, ¬left j) →
          t.sessions = [{ x with runLimit := seconds 60, runLeft := seconds 60, runFrom := some now }]
          ∧ t.level.state = (if ∀ j : Jack, t.jacks[j].state = .contact then .settle else .recontact)
          ∧ ∀ j : Jack, stops j → t.level.plan[j] = { s.level.plan[j] with moving := false, held := false }
            ∧ t.drive[extendValve j] = { s.drive[extendValve j] with
                buffered := some (if t.jacks[j].state = .contact then 0 else 600) })
        ∧ (¬grown t → t.level.state = .lift → t.sessions = [x]
          ∧ (∀ j : Jack, stops j → t.level.plan[j] = { s.level.plan[j] with moving := false, held := false }
            ∧ t.jacks[j].state = jackRest j t
            ∧ t.drive[extendValve j] = { s.drive[extendValve j] with buffered := some 0 })
          ∧ (∀ j : Jack,
            let n := if (value (pressureSlot j)).getD 0 < s.sampler.inForce[pressureSlot j].release then min 5 (s.level.hangCount[j] + 1) else 0
            t.level.hangCount[j] = n ∧ t.level.hanging[j] = (s.level.hanging[j] || decide (n = 5)))
          ∧ ∀ least : Jack, left least → (∀ j : Jack, left j → progress least ≤ progress j) → ∀ j : Jack, left j →
            let p := s.level.plan[j]
            let holds := p.held = false ∧ progress least + 150 < progress j
            let frees := p.held = true ∧ progress j ≤ progress least + 75
            t.level.plan[j] = { p with held := if holds then true else if frees then false else p.held }
            ∧ t.drive[extendValve j] = { s.drive[extendValve j] with
                buffered := if holds then some 0 else if frees then some p.duty else s.drive[extendValve j].buffered })
        ∧ (¬grown t → (∃ j : Jack, left j) → t.level.state = .lift)
        ∧ (grown t → (∃ j : Jack, s.level.plan[j].moving = true) → (∀ j : Jack, ¬stops j) →
          t.sessions = [] ∧ t.level.state = .idle ∧ t.level.outcome = .fault
          ∧ (∀ j : Jack, s.level.plan[j].moving = true → t.jacks[j].fault =
              ⟨some (s.jacks[j].fault.kind.getD .tiltGuard), s.jacks[j].fault.kind.isSome, Vector.replicate 4 false⟩)
          ∧ (∀ j : Jack, t.jacks[j].lastEnd = some ⟨.fault, none, x.owner, .level⟩
            ∧ t.drive[extendValve j] = forced s.drive[extendValve j]
            ∧ t.drive[retractValve j] = forced s.drive[retractValve j])
          ∧ ∀ l : Link, (t.events[l].pending).getLsbD 2 = true ∧ (t.events[l].pending).getLsbD 5 = true
            ∧ (t.events[l].pending).getLsbD 1 = true)

/-- 02 R26, R27, R28, R29, R30, R31, 01 R14, 06 R93: a slot's third out-of-window value clears its sample-valid flag and
raises SENSOR on the jack or the pump it serves; a slot's trip sets its flag, which is contact for a stopped jack and
OVERCURRENT for the pump. Said for a part at rest, not in HOLDING, with the chassis at a stand. That these rows stand for
the value that would reach the limit is the model's reading (log 6). -/
def Obligations.SlotLimitsTakeEffect : Prop :=
  ∀ (slot : Slot) (s : State), Settled s → AtRest s → s.level.state = .idle → s.sampler.running = true →
    chassisMoving s = false → s.interlock.driveAway = false →
    let occurred := fun (h : FaultHolder) (k : FaultKind) =>
      FaultRec.mk (some ((faultOf h s).kind.getD k)) (faultOf h s).kind.isSome (Vector.replicate 4 false)
    let fault := fun (served : Option FaultHolder) (k : FaultKind) (u : State) => match served with
      | some h => { setFault h (occurred h k) u with events := posted .fault u }
      | none => u
    let served := match jackOfSlot slot with
      | some j => some (FaultHolder.channel (.jack j))
      | none => if slot = 15 then some .pump else none
    (s.sampler.slots[slot].outCount = 2 →
      exec (.outOfWindowLimit slot) s = .next (fault served .sensor { s with
        sampler := { s.sampler with
          slots := upd s.sampler.slots slot fun r => { r with outCount := 3, sampleValid := false }
          pitch := { s.sampler.pitch with seeded := s.sampler.pitch.seeded && decide (slot ≠ 0) }
          roll := { s.sampler.roll with seeded := s.sampler.roll.seeded && decide (slot ≠ 1) } }
        supply := if slot = 14 then { s.supply with fallCount := 0, riseCount := 0 } else s.supply
        level := if slot.val < 2 ∧ attitudeValid s = true then { s.level with drift := 0 } else s.level }))
    ∧ (hasExceedance slot = true → s.sampler.slots[slot].tripped = false →
      s.sampler.inForce[slot].tripCount ≤ s.sampler.slots[slot].counter + 1 →
      let tripped := { s with sampler := { s.sampler with slots := upd s.sampler.slots slot fun r =>
        { r with counter := s.sampler.inForce[slot].tripCount, tripped := true } } }
      (slot = 15 → exec (.exceedanceTrip slot) s = .next (fault (some .pump) .overcurrent tripped))
      ∧ ∀ j : Jack, slot = pressureSlot j → exec (.exceedanceTrip slot) s = .next { tripped with
          jacks := upd s.jacks j fun e => { e with
            state := if e.state = .extending ∨ e.state = .retracting then e.state else .contact } })

/-- 07 R120, R124, R125, 06 R92, R94, R101, R104: the counts that reach their limit: the fifth pressure below release marks
a jack hanging; the fiftieth value on one side moves the supply state one band, with SUPPLY_STATE; a fall takes the newest
allotment back, its slide forced to zero and WAITING at the head of the queue, and removes a queue entry above the budget
with NO_SUPPLY; a rise grants the head that fits; the 300th frame of drift posts LEVEL_DRIFT and, with auto-relevel on,
marks a relevel that a run or a slide or awning session puts off. That these rows stand for the value that reaches the
limit is the model's reading (log 6). -/
def Obligations.CountsAtTheirLimitTakeEffect : Prop :=
  ∀ s : State, Settled s →
    (∀ j : Jack, lifting s = true → s.level.hanging[j] = false → 4 ≤ s.level.hangCount[j] →
      exec (.hangingCountReached j) s = .next { s with level := { s.level with
        hangCount := upd s.level.hangCount j fun _ => 5, hanging := upd s.level.hanging j fun _ => true } })
    ∧ (AtRest s → supplyValid s = true → s.supply.state ≠ .critical → 49 ≤ s.supply.fallCount →
      exec (.supplyDwellComplete .fall) s = .next { s with
        supply := { s.supply with state := stateBelow s.supply.state, fallCount := 0, riseCount := 0 }
        events := posted .supplyState s })
    ∧ (AtRest s → supplyValid s = true → s.supply.state ≠ .strong → 49 ≤ s.supply.riseCount →
      exec (.supplyDwellComplete .rise) s = .next { s with
        supply := { s.supply with state := stateAbove s.supply.state, fallCount := 0, riseCount := 0 }
        events := posted .supplyState s })
    ∧ (s.level.state = .holding → 299 ≤ s.level.drift →
      s.settings.autoRelevel = false ∨ s.program.run ≠ none
        ∨ (∃ x ∈ s.sessions, x.cover.isSlide = true ∨ x.cover.isAwning = true) →
      exec .driftCounterTrip s = .next { s with
        level := { s.level with drift := 0, deferred := s.level.deferred || s.settings.autoRelevel }
        events := posted .levelDrift s })
    ∧ (s.control.mode ≠ .sleep → s.program.run = none → s.level.deferred = false → supplyValid s = true →
      let lower := budgetOf (stateBelow s.supply.state)
      let below := { s.supply with state := stateBelow s.supply.state, fallCount := 0, riseCount := 0 }
      (∀ (i k : Slide) (x y : Session) (m n p q : Nat), 49 ≤ s.supply.fallCount → s.supply.state ≠ .critical →
        i ≠ k → s.sessions = [x, y] → x.cover = .one (.slide i) → y.cover = .one (.slide k) →
        x.phase = .running → y.phase = .running → s.supply.queue = [] → p < q →
        s.supply.allotments = [⟨.session x.cover, m, some p⟩, ⟨.session y.cover, n, some q⟩] →
        m ≤ lower → n ≤ lower → lower < m + n →
        ∃ t, exec (.supplyDwellComplete .fall) s = .next t
          ∧ t.sessions = [x, { y with phase := .waiting, runLeft := y.timeLeft s.now, runFrom := none }]
          ∧ t.supply = { below with
              allotments := [⟨.session x.cover, m, some p⟩], queue := [⟨.session y.cover, n, s.now⟩] }
          ∧ t.slides = upd s.slides k (fun e => { e with
              seating := .none, lastFront := 0, lastRear := 0, state := slideRest k s })
          ∧ t.drive = bothMotors k forced s.drive
          ∧ (∀ h : Hall, t.pulse.inputs[h] = if h = frontHall k ∨ h = rearHall k
              then coasting s.drive[servingOutput h] s.now s.pulse.inputs[h] else s.pulse.inputs[h])
          ∧ (∀ l : Link, (t.events[l].pending).getLsbD 10 = true)
          ∧ t = { s with
              sessions := t.sessions, supply := t.supply, slides := t.slides, drive := t.drive
              pulse := { s.pulse with inputs := t.pulse.inputs }, events := t.events
              interlock := { s.interlock with driveAway := t.interlock.driveAway, alarm := t.interlock.alarm } })
      ∧ (∀ (i : Slide) (x : Session) (m at_ : Nat), s.sessions = [x] → x.cover = .one (.slide i) →
        x.phase = .waiting → s.supply.allotments = [] → s.supply.queue = [⟨.session x.cover, m, at_⟩] →
        (49 ≤ s.supply.fallCount → s.supply.state ≠ .critical → lower < m → x.op = .move → x.origin = .link →
          s.slides[i].state = slideRest i s →
          exec (.supplyDwellComplete .fall) s = .next { s with
            sessions := [], supply := { below with queue := [] }
            slides := upd s.slides i fun e =>
              { e with seating := .none, lastEnd := some ⟨.noSupply, none, x.owner, .move⟩ }
            events := posted .sessionEnd { s with events := posted .supplyState s }
            memory := storeAsked .posture s
            control := { s.control with idleDue :=
              if s.control.mode = .ready ∧ ignitionOn s = false then some (s.now + minutes 30) else none } })
        ∧ ∀ d : Dir, 49 ≤ s.supply.riseCount → s.supply.state ≠ .strong →
          m ≤ budgetOf (stateAbove s.supply.state) → x.dir = some d → x.target = none → x.kind = .hold →
          x.origin = .link → DriveAwayAgrees s → (slideSkew i s).natAbs ≤ 8 →
          let duty := plainDuty i (x.creep || x.jogged) s
          exec (.supplyDwellComplete .rise) s = .next (outAway { s with
            sessions := [{ x with phase := .running, runFrom := some s.now }]
            supply := { s.supply with
              state := stateAbove s.supply.state, fallCount := 0, riseCount := 0, queue := []
              allotments := [⟨.session x.cover, m, some s.supply.nextOrder⟩], nextOrder := s.supply.nextOrder + 1 }
            slides := upd s.slides i (startedSlide d duty), drive := bothMotors i (given d duty) s.drive
            events := posted .supplyState s })))

/-! ### Outputs and pulse inputs -/

/-- 03 R39, R41, R42, R43, R44, R48, R50, 04 R67, R70: what an output does at its next boundary: a motor takes its duty, is
held at 0 while its direction is neutral or its coast runs the other way, and takes a new direction once its duty is 0; the
pump rises by 2 toward its duty and falls at once; an extend valve takes its duty; a retract valve begins a pull-in, which
ends at the first boundary 150 ms or more later at the hold duty, or closes. The last output of a STOPPING session to fall
ends it with its pending code, its current returned and a store asked; said of the only session. Where the boundaries lie
is the model's choice (log 18), as is that a stall start clears the reported mark (log 46). -/
def Obligations.BoundaryAppliesDuty : Prop :=
  ∀ (o : Output) (s : State), Settled s →
    let r := s.drive[o]
    let now := max s.now (nextBoundary o s)
    let passed := { r with boundaryAt := nextBoundary o s + drivePeriod o }
    let after := fun x : DriveOutput => { s with now := now, drive := upd s.drive o fun _ => x }
    let plain := fun next : Nat => r.applied ≠ 0 → next = 0 → ∀ (c : Channel) (x : Session),
      channelOfOutput o = some c → sessionOn c s = some x →
      x.phase ≠ .stopping ∨ ∃ p ∈ outputsOfCover x.cover, p ≠ o ∧ s.drive[p].applied ≠ 0
    (∀ (h : o.val < 10) (duty : Nat), r.pendingDir = none → r.buffered = some duty →
      let against := (s.pulse.inputs[o.val].coast).any fun w => decide (r.dir ≠ some w.dir)
      let held : Bool := r.dir = none ∨ duty ≠ 0 ∧ against = true
      let next := if held then 0 else duty
      plain next →
      exec (.periodBoundary o) s = .next { after { passed with
          applied := next, buffered := if held then some duty else none
          lastDir := if next = 0 then r.lastDir else r.dir } with
        pulse := { s.pulse with inputs := upd s.pulse.inputs ⟨o.val, h⟩ fun e => { e with
          coast := if r.applied = 0 ∧ next ≠ 0 then none
            else if r.applied ≠ 0 ∧ next = 0 ∧ r.dir ≠ none then r.dir.map fun d => ⟨d, now + ms 200⟩ else e.coast
          stallStart := if next < 200 then none else if r.applied < 200 then some now else e.stallStart
          stallReported := e.stallReported && !decide (r.applied < 200 ∧ 200 ≤ next) } } })
    ∧ (∀ (h : o.val < 10) (d : Dir) (c : Channel), channelOfOutput o = some c → sessionOn c s = none →
      r.pendingDir = some d →
      exec (.periodBoundary o) s = .next (if r.applied = 0
        then after { passed with dir := some d, pendingDir := none }
        else { after { passed with applied := 0 } with
          pulse := { s.pulse with inputs := upd s.pulse.inputs ⟨o.val, h⟩ fun e => { e with
            stallStart := none
            coast := match r.dir with | some w => some ⟨w, now + ms 200⟩ | none => e.coast } } }))
    ∧ (∀ duty, o = pumpOutput → r.dir = none → r.buffered = some duty →
      let next := if r.applied < duty then min (r.applied + 2) duty else duty
      exec (.periodBoundary o) s = .next (after { passed with
        applied := next, buffered := if next = duty then none else some duty }))
    ∧ (∀ duty, 10 < o.val → o.val < 17 → r.dir = none → r.buffered = some duty → plain duty →
      exec (.periodBoundary o) s = .next (after { passed with applied := duty, buffered := none }))
    ∧ (∀ duty, 17 ≤ o.val → r.dir = none → r.buffered = some duty → duty ≠ 0 → r.applied = 0 →
      exec (.periodBoundary o) s = .next (after { passed with
        applied := 1000, buffered := none, pullInAt := some now }))
    ∧ (17 ≤ o.val → r.buffered = some 0 → plain 0 →
      exec (.periodBoundary o) s = .next (after { passed with applied := 0, buffered := none, pullInAt := none }))
    ∧ (∀ began, 17 ≤ o.val → r.dir = none → r.buffered = none → r.pullInAt = some began →
      let due := nextBoundary o { s with now := max s.now (began + ms 150) }
      exec (.pullInEnd o) s = .next { s with
        now := max (max s.now (began + ms 150)) due
        drive := upd s.drive o fun r => { r with
          applied := 350, pullInAt := none, boundaryAt := due + drivePeriod o } })
    ∧ ∀ (c : Channel) (x : Session) (a : Allotment), channelOfOutput o = some c → s.sessions = [x] → x.cover = .one c →
      x.op = .move → x.origin = .link → x.phase = .stopping → s.program.run = none → s.level.deferred = false →
      s.supply.queue = [] → s.supply.allotments = [a] → a.holder = .session x.cover ∨ a.holder = .pump [x.cover] →
      r.applied ≠ 0 → r.buffered = some 0 → r.pendingDir = none →
      (∀ p ∈ outputsOf c, p ≠ o → s.drive[p].applied = 0) →
      let code := x.pendingEnd.getD .done
      let record := some (LastEnd.mk code none x.owner .move)
      ∃ t, exec (.periodBoundary o) s = .next t
        ∧ t.sessions = [] ∧ t.supply = { s.supply with allotments := [] }
        ∧ t.drive[o].applied = 0
        ∧ (∀ p : Output, p ≠ o → t.drive[p] = if p = pumpOutput ∧ a.holder.isPump = true
            then forced s.drive[p] else s.drive[p])
        ∧ (∀ j : Jack, t.jacks[j] = if c = .jack j
            then { s.jacks[j] with state := jackRest j s, lastEnd := record } else s.jacks[j])
        ∧ (∀ i : Slide, t.slides[i] = if c = .slide i
            then { s.slides[i] with state := slideRest i s, seating := .none, lastEnd := record } else s.slides[i])
        ∧ (∀ a : Awning, t.awnings[a] = if c = .awning a
            then { s.awnings[a] with state := awningRest a s, lastEnd := record } else s.awnings[a])
        ∧ t.memory = storeAsked .posture { t with memory := s.memory }
        ∧ (∀ l : Link, (t.events[l].pending).getLsbD 1 = true)
        ∧ t.control = { s.control with idleDue :=
            if s.control.mode = .ready ∧ ignitionOn s = false then some (now + minutes 30) else none }
        ∧ t = { s with
            now := now, drive := t.drive, pulse := { s.pulse with inputs := t.pulse.inputs }, sessions := []
            jacks := t.jacks, slides := t.slides, awnings := t.awnings, supply := t.supply, memory := t.memory
            interlock := { s.interlock with driveAway := t.interlock.driveAway, alarm := t.interlock.alarm }
            events := t.events, control := t.control }

/-- 01 R5, R6, R7, R9, 03 R47, R49, 04 R67, R70, 08 R132, R136 to R139, 09 R150 to R152, 12 R201: an edge counts one,
within 0 to 32000, in the direction its motor is driven or coasts in, or in which the slide's other motor is driven; an
edge that is none of these adds to the stray tally, and the ninth unhomes a homed channel, with POSTURE_LOST and a
posture store of the record that shows it. Said for a part without sessions; the row of the ninth stray edge is that
edge (log 6), and a STOWED room or awning stays STOWED through coast edges (log 45). Under the only session a counted
edge is judged: a slide's skew of 120 ends it with the fault SKEW, a target reached stops it softly with DONE, as an
awning's end of travel does, and otherwise a slide runs on with its duties trimmed. An awning's edge that takes it above
its clearance count, and the stray edge that unhomes it, end the RUNNING session of a slide of its conflict set with
INTERLOCK, reason AWNING_CLEAR, at that event (05 R84, R86): the outputs are forced to zero, the current is returned and
a posture store is asked. -/
def Obligations.HallEdgeCountsOrIsStray : Prop :=
  ∀ (p : Hall) (s : State), Settled s → s.pulse.offSince = none →
    let out := s.drive[servingOutput p]
    let counts := fun d : Dir => (out.applied ≠ 0 ∧ out.dir = some d)
      ∨ (out.applied = 0 ∧ ∃ w, s.pulse.inputs[p].coast = some w ∧ w.dir = d)
      ∨ (out.applied = 0 ∧ s.pulse.inputs[p].coast = none
        ∧ ∃ o, otherOutput p = some o ∧ s.drive[o].applied ≠ 0 ∧ s.drive[o].dir = some d)
    let counted := fun d : Dir => { s.pulse with inputs := upd s.pulse.inputs p fun h => { h with
      count := match d with | .outward => min 32000 (h.count + 1) | .inward => h.count - 1
      lastEdgeAt := s.now, stallReported := false } }
    let tallied := fun h : HallInput => { h with stray := min 9 (h.stray + 1), lastEdgeAt := s.now }
    (∀ d : Dir, s.sessions = [] → counts d →
      ∃ t, exec (.hallEdge p) s = .next t
        ∧ t.pulse = counted d
        ∧ (∀ i : Slide, t.slides[i] = { s.slides[i] with
            wasStowed := s.slides[i].wasStowed
              && decide (s.slides[i].state = .stowed ∨ slidePosition i t = slidePosition i s)
            state := t.slides[i].state })
        ∧ (∀ a : Awning, t.awnings[a] = { s.awnings[a] with
            wasStowed := s.awnings[a].wasStowed
              && decide (s.awnings[a].state = .stowed ∨ awningPosition a t = awningPosition a s)
            state := t.awnings[a].state })
        ∧ t.interlock = { s.interlock with driveAway := t.interlock.driveAway, alarm := t.interlock.alarm }
        ∧ (∀ (l : Link) (n : Nat), n ≠ 9 → (t.events[l].pending).getLsbD n = (s.events[l].pending).getLsbD n)
        ∧ t = { s with
            pulse := t.pulse, slides := t.slides, awnings := t.awnings, interlock := t.interlock, events := t.events })
    ∧ (s.sessions = [] → out.applied = 0 → s.pulse.inputs[p].coast = none →
      (∀ o, otherOutput p = some o → s.drive[o].applied = 0) →
      (s.pulse.inputs[p].stray ≠ 8 ∨ homed (channelOfHall p) s = false → s.pulse.inputs[p].stray ≤ 9 →
        exec (.hallEdge p) s = .next { s with
          pulse := { s.pulse with inputs := upd s.pulse.inputs p tallied } })
      ∧ (s.pulse.inputs[p].stray = 8 → homed (channelOfHall p) s = true →
        ∃ t, exec (.hallEdge p) s = .next t ∧ exec (.strayTallyLimit p) s = .next t
          ∧ t.pulse = { s.pulse with inputs := upd s.pulse.inputs p tallied }
          ∧ homed (channelOfHall p) t = false
          ∧ (∀ i : Slide, t.slides[i] = if channelOfHall p = .slide i
              then { s.slides[i] with homed := false, state := .unhomed } else s.slides[i])
          ∧ (∀ a : Awning, t.awnings[a] = if channelOfHall p = .awning a
              then { s.awnings[a] with homed := false, state := .unhomed } else s.awnings[a])
          ∧ (∀ l : Link, (t.events[l].pending).getLsbD 13 = true)
          ∧ t.memory = storeAsked .posture { t with memory := s.memory }
          ∧ t.interlock = { s.interlock with driveAway := t.interlock.driveAway, alarm := t.interlock.alarm }
          ∧ t = { s with
              pulse := t.pulse, slides := t.slides, awnings := t.awnings, interlock := t.interlock
              events := t.events, memory := t.memory }))
    ∧ (∀ (d : Dir) (x : Session), counts d → s.sessions = [x] → x.cover = .one (channelOfHall p) → x.op = .move →
      x.origin = .link → s.control.mode ≠ .sleep → s.program.run = none → s.level.deferred = false →
      let u := { s with pulse := counted d }
      let still := fun o : DriveOutput => { o with buffered := some 0 }
      (∀ i : Slide, channelOfHall p = .slide i → s.slides[i].state = .movingOut ∨ s.slides[i].state = .movingIn →
        let kept := fun e : SlideEntry =>
          { e with wasStowed := e.wasStowed && decide (slidePosition i u = slidePosition i s) }
        (x.phase ≠ .waiting → 120 ≤ (slideSkew i u).natAbs →
          ∃ t, exec (.hallEdge p) s = .next t
            ∧ t.sessions = []
            ∧ t.slides[i].fault
              = ⟨some (s.slides[i].fault.kind.getD .skew), s.slides[i].fault.kind.isSome, Vector.replicate 4 false⟩
            ∧ t.slides[i].lastEnd = some ⟨.fault, none, x.owner, .move⟩
            ∧ t.slides[i].state = slideRest i { u with slides := upd s.slides i kept }
            ∧ t.drive = bothMotors i forced s.drive
            ∧ (∀ k : Slide, k ≠ i → t.slides[k] = s.slides[k]) ∧ t.awnings = s.awnings ∧ t.jacks = s.jacks
            ∧ (∀ l : Link, (t.events[l].pending).getLsbD 2 = true ∧ (t.events[l].pending).getLsbD 1 = true)
            ∧ t.memory = storeAsked .posture { t with memory := s.memory }
            ∧ t.settings = s.settings ∧ t.sampler = s.sampler ∧ t.level = s.level ∧ t.wind = s.wind)
        ∧ (x.phase = .running → (slideSkew i u).natAbs < 120 →
          let aimed := x.target.filter fun n => !decide (x.dir = some .inward ∧ n ≤ 400)
          let reached := s.slides[i].homed = true ∧ ∃ n, aimed = some n ∧ match x.dir with
            | some .outward => n ≤ slidePosition i u
            | some .inward => slidePosition i u ≤ n
            | none => False
          (reached → s.drive[frontOutput i].applied ≠ 0 ∨ s.drive[rearOutput i].applied ≠ 0 →
            exec (.hallEdge p) s = .next { u with
              sessions := [stoppingWith .done s.now x]
              slides := upd s.slides i fun e => { kept e with seating := .none, lastFront := 0, lastRear := 0 }
              drive := bothMotors i still s.drive })
          ∧ ∀ way : Dir, ¬reached → x.dir = some way →
            let near := ∃ n, aimed = some n ∧ slidePosition i u ≤ n + 400 ∧ n ≤ slidePosition i u + 400
            let plain := plainDuty i (x.creep || x.jogged) u
            let duty := fun m : Motor =>
              motorDuty m (if near then min plain 450 else plain) way (slideSkew i u) s.slides[i].seating
            let changed := fun (m : Motor) (last : Nat) (o : DriveOutput) =>
              if last = duty m then o else { o with buffered := some (duty m) }
            exec (.hallEdge p) s = .next { u with
              slides := upd s.slides i fun e => { kept e with lastFront := duty .front, lastRear := duty .rear }
              drive := upd (upd s.drive (frontOutput i) (changed .front s.slides[i].lastFront)) (rearOutput i)
                (changed .rear s.slides[i].lastRear) }))
      ∧ ∀ a : Awning, channelOfHall p = .awning a → s.awnings[a].state = .extending ∨ s.awnings[a].state = .retracting →
        x.phase = .running →
        let kept := upd s.awnings a fun e =>
          { e with wasStowed := e.wasStowed && decide (awningPosition a u = awningPosition a s) }
        let ends := s.awnings[a].homed = true ∧ match x.dir with
          | some .outward => x.target.getD s.settings.awningFull[a] ≤ awningPosition a u
          | some .inward => ∃ n, x.target = some n ∧ 200 < n ∧ awningPosition a u ≤ n
          | none => False
        (ends → s.drive[awningOutput a].applied ≠ 0 →
          exec (.hallEdge p) s = .next { u with
            sessions := [stoppingWith .done s.now x], awnings := kept, drive := upd s.drive (awningOutput a) still })
        ∧ (¬ends → exec (.hallEdge p) s = .next { u with awnings := kept }))
    ∧ ∀ (a : Awning) (i : Slide) (x : Session), p = awningHall a → inConflict i a s = true → s.sessions = [x] →
      x.cover = .one (.slide i) → x.op = .move → x.origin = .link → x.phase = .running → s.control.mode ≠ .sleep →
      s.program.run = none → s.level.deferred = false → s.supply.queue = [] → pumpAllotted s = false →
      (if x.dir = some .outward then chassisCondition s = .parked ∧ (s.settings.support[i] = true → supported s = true)
        else chassisCondition s ≠ .travel) →
      let ends := fun (pulse : PulseUnit) (t : State) => exec (.hallEdge p) s = .next t
        ∧ t.slides = upd s.slides i (fun e => { e with
            seating := .none, lastFront := 0, lastRear := 0, state := slideRest i s
            lastEnd := some ⟨.interlock, some .awningClear, x.owner, .move⟩ })
        ∧ t.drive = bothMotors i forced s.drive
        ∧ (∀ h : Hall, t.pulse.inputs[h] = if h = frontHall i ∨ h = rearHall i
            then coasting s.drive[servingOutput h] s.now pulse.inputs[h] else pulse.inputs[h])
        ∧ t.supply = { s.supply with
            allotments := s.supply.allotments.filter (fun y => decide (y.holder ≠ .session x.cover)) }
        ∧ t.memory = storeAsked .posture { t with memory := s.memory }
        ∧ (∀ l : Link, (t.events[l].pending).getLsbD 1 = true)
        ∧ t = { s with
            control := { s.control with idleDue :=
              if s.control.mode = .ready ∧ ignitionOn s = false then some (s.now + minutes 30) else none }
            sessions := [], slides := t.slides, awnings := t.awnings, drive := t.drive
            pulse := { pulse with inputs := t.pulse.inputs }, supply := t.supply, memory := t.memory
            interlock := { s.interlock with driveAway := t.interlock.driveAway, alarm := t.interlock.alarm }
            events := t.events }
      (counts .outward → awningPosition a s ≤ s.settings.clearance[a] →
        s.settings.clearance[a] < awningPosition a { s with pulse := counted .outward } →
        ∃ t, ends (counted .outward) t
          ∧ ∀ b : Awning, t.awnings[b] = if b = a
            then { s.awnings[a] with
              wasStowed := s.awnings[a].wasStowed && decide (s.awnings[a].state = .stowed), state := t.awnings[a].state }
            else s.awnings[b])
      ∧ (s.pulse.inputs[p].stray = 8 → s.awnings[a].homed = true → out.applied = 0 → s.pulse.inputs[p].coast = none →
        ∃ t, ends { s.pulse with inputs := upd s.pulse.inputs p tallied } t ∧ exec (.strayTallyLimit p) s = .next t
          ∧ t.awnings = upd s.awnings a (fun e => { e with homed := false, state := .unhomed })
          ∧ ∀ l : Link, (t.events[l].pending).getLsbD 13 = true)

/-- 03 R50, 08 R140, R141, R142, R143, R144, 09 R153, 01 R8, R14, R15: a stall report finds a slide or awning that is not
RUNNING idle. Of an awning: retracting in its home zone, or not homed, it is home; extending and not homed, it ends the jog;
otherwise it is an obstruction. Of a slide: moving in at its home zone, or not homed, the first motor's report seats it and
starts the seat timer, and the other's homes the slide; moving out in its out zone it is EXTENDED; moving out and not homed
it ends the jog; otherwise it is an obstruction. A seat timer that runs out is a SEAT_TIMEOUT. Said where no other session
exists. -/
def Obligations.StallsAreJudged : Prop :=
  ∀ (p : Hall) (due : Nat) (s : State), Settled s → s.control.mode = .ready →
    let now := max s.now due
    let reported := fun h : HallInput => { h with stallReported := true }
    (stallDue p s = some due → (∀ x, sessionOn (channelOfHall p) s = some x → x.phase ≠ .running) →
      exec (.stallReport p) s = .next { s with
        now := now, pulse := { s.pulse with inputs := upd s.pulse.inputs p reported } })
    ∧ (∀ (a : Awning) (x : Session), stallDue p s = some due → p = awningHall a → s.sessions = [x] →
      x.cover = .one (.awning a) → x.phase = .running → x.dir = some .inward →
      s.awnings[a].homed = false ∨ awningPosition a s ≤ 200 → s.drive[awningOutput a].applied ≠ 0 →
      exec (.stallReport p) s = .next { s with
        now := now
        pulse := { s.pulse with inputs := upd s.pulse.inputs p fun h =>
          { h with stallReported := true, count := 0, stray := 0 } }
        awnings := upd s.awnings a fun e => { e with homed := true, seatedHome := true }
        sessions := [{ x with
          phase := .stopping, pendingEnd := some .done, runLeft := x.timeLeft now, runFrom := none }]
        drive := upd s.drive (awningOutput a) fun o => { o with buffered := some 0 } })
    ∧ (∀ (i : Slide) (x : Session), stallDue p s = some due → channelOfHall p = .slide i → s.sessions = [x] →
      x.cover = .one (.slide i) → x.phase = .running → x.dir = some .inward → s.slides[i].seating = .none →
      s.slides[i].homed = false ∨ slidePosition i s ≤ 400 →
      ∃ t, exec (.stallReport p) s = .next t
        ∧ t.now = now ∧ t.sessions = s.sessions
        ∧ t.slides[i].seating = .oneSeated (motorOfHall p) (now + ms 1500)
        ∧ t.drive[motorOutput i (motorOfHall p)]
          = { s.drive[motorOutput i (motorOfHall p)] with buffered := some 0 }
        ∧ t.pulse = { s.pulse with inputs := upd s.pulse.inputs p reported }
        ∧ (∀ o : Output, o ≠ frontOutput i → o ≠ rearOutput i → t.drive[o] = s.drive[o])
        ∧ (∀ k : Slide, k ≠ i → t.slides[k] = s.slides[k])
        ∧ t = { s with now := t.now, slides := t.slides, drive := t.drive, pulse := t.pulse })
    ∧ (∀ (i : Slide) (x : Session), stallDue p s = some due → channelOfHall p = .slide i → s.sessions = [x] →
      x.cover = .one (.slide i) → x.phase = .running →
      s.drive[frontOutput i].applied ≠ 0 ∨ s.drive[rearOutput i].applied ≠ 0 →
      let softly := fun (e : SlideEntry) (v : Vector HallInput 10) => exec (.stallReport p) s = .next { s with
        now := now, pulse := { s.pulse with inputs := v }
        slides := upd s.slides i fun _ => { e with seating := .none, lastFront := 0, lastRear := 0 }
        sessions := [stoppingWith .done now x]
        drive := bothMotors i (fun o => { o with buffered := some 0 }) s.drive }
      let heard := upd s.pulse.inputs p reported
      let zeroed := fun h : HallInput => { h with count := 0, stray := 0 }
      (∀ end_, x.dir = some .inward → s.slides[i].seating = .oneSeated (motorOfHall p).other end_ →
        s.slides[i].homed = false ∨ slidePosition i s ≤ 400 →
        softly { s.slides[i] with homed := true, seatedHome := true }
          (upd (upd heard (frontHall i) zeroed) (rearHall i) zeroed))
      ∧ (x.dir = some .outward → s.slides[i].homed = true → s.settings.slideFull[i] ≤ slidePosition i s + 400 →
        softly { s.slides[i] with stalledOut := true } heard)
      ∧ (x.dir = some .outward → s.slides[i].homed = false → softly s.slides[i] heard))
    ∧ (∀ (a : Awning) (x : Session), stallDue p s = some due → p = awningHall a → s.sessions = [x] →
      x.cover = .one (.awning a) → x.phase = .running → x.dir = some .outward → s.awnings[a].homed = false →
      s.drive[awningOutput a].applied ≠ 0 →
      exec (.stallReport p) s = .next { s with
        now := now, pulse := { s.pulse with inputs := upd s.pulse.inputs p reported }
        sessions := [stoppingWith .done now x]
        drive := upd s.drive (awningOutput a) fun o => { o with buffered := some 0 } })
    ∧ ∀ (c : Channel) (x : Session), s.sessions = [x] → x.cover = .one c → x.op = .move → x.origin = .link →
      x.phase = .running → s.program.run = none → s.level.deferred = false →
      let failed := fun (k : FaultKind) (t : State) =>
        t.now = now ∧ t.sessions = []
        ∧ faultOf (.channel c) t = ⟨some ((faultOf (.channel c) s).kind.getD k), (faultOf (.channel c) s).kind.isSome,
            Vector.replicate 4 false⟩
        ∧ lastEndOf c t = some ⟨.fault, none, x.owner, .move⟩
        ∧ (∀ i : Slide, c = .slide i → t.slides[i].seating = .none ∧ t.slides[i].lastFront = 0
          ∧ t.slides[i].lastRear = 0 ∧ t.slides[i].state = slideRest i s)
        ∧ (∀ a : Awning, c = .awning a → t.awnings[a].state = awningRest a s)
        ∧ (∀ o ∈ outputsOf c, t.drive[o] = forced s.drive[o])
        ∧ (∀ l : Link, (t.events[l].pending).getLsbD 2 = true ∧ (t.events[l].pending).getLsbD 1 = true)
        ∧ t.memory = storeAsked .posture { t with memory := s.memory }
        ∧ t.settings = s.settings ∧ t.sampler = s.sampler ∧ t.jacks = s.jacks
        ∧ (∀ i : Slide, c ≠ .slide i → t.slides[i] = s.slides[i])
        ∧ (∀ a : Awning, c ≠ .awning a → t.awnings[a] = s.awnings[a])
        ∧ t.level = s.level ∧ t.wind = s.wind
      let obstructed := match c with
        | .slide i => s.slides[i].homed = true ∧ match x.dir with
          | some .outward => slidePosition i s + 400 < s.settings.slideFull[i]
          | some .inward => 400 < slidePosition i s
          | none => False
        | .awning a => s.awnings[a].homed = true ∧ match x.dir with
          | some .outward => True
          | some .inward => 200 < awningPosition a s
          | none => False
        | .jack _ => False
      (stallDue p s = some due → channelOfHall p = c → obstructed →
        ∃ t, exec (.stallReport p) s = .next t ∧ failed .stall t)
      ∧ ∀ i : Slide, c = .slide i → seatDue i s = some due →
        ∃ t, exec (.seatTimerExpiry i) s = .next t ∧ failed .seatTimeout t

/-! ### Wind -/

/-- 03 R51, 09 R155, R156, R159: an anemometer edge is the first, a bounce, a period and so a speed sample, or the end of
a silence; 3 s of silence are a sample of 0. A sample sets the speed and counts a gust, is calm, or lies between; said
of samples that do not trip. -/
def Obligations.WindEdgesAreSampled : Prop :=
  ∀ s : State, Settled s → s.pulse.wind.on = true →
    let sampled := fun (v : Nat) (u : State) => { u with wind :=
      if s.control.mode = .loading then { u.wind with speed := v }
      else if 110 ≤ v then { u.wind with
        speed := v, gusts := u.wind.gusts + 1
        lockoutDue := u.wind.lockoutDue.map fun _ => u.now + minutes 10 }
      else { u.wind with speed := v, gusts := if v ≤ 80 then 0 else u.wind.gusts } }
    (s.pulse.wind.lastEdge = none → exec .anemometerEdge s = .next { s with
      pulse := { s.pulse with wind := { s.pulse.wind with lastEdge := some s.now } } })
    ∧ (∀ last, s.pulse.wind.lastEdge = some last →
      (s.now - last < ms 1 → exec .anemometerEdge s = .next s)
      ∧ (ms 1 ≤ s.now - last → s.now - last ≤ ms 3000 →
        let period := (s.now - last) / 1000
        let v := min 600 (7000 / period)
        (110 ≤ v → s.control.mode ≠ .loading → s.wind.gusts + 1 < s.settings.windTripCount) →
        exec .anemometerEdge s = .next (sampled v { s with
          pulse := { s.pulse with wind :=
            { s.pulse.wind with lastEdge := some s.now, period := some period, quiet := false } } }))
      ∧ (ms 3000 < s.now - last → exec .anemometerEdge s = .next { s with
        pulse := { s.pulse with wind :=
          { s.pulse.wind with lastEdge := some s.now, period := none, quiet := false } } })
      ∧ (s.pulse.wind.quiet = false → exec .noPulse s = .next (sampled 0 { s with
        now := max s.now (last + ms 3000)
        pulse := { s.pulse with wind := { s.pulse.wind with period := none, quiet := true } } })))

/-- 09 R157, R158, R159, 06 R99, 12 R200: a wind trip posts WIND_TRIP, starts the lockout afresh, clears the gust
counter, wakes a part in Sleep, and retracts every awning that is not STOWED on the reserve, owner INTERNAL, A1 first.
Said for a part at rest, and of one awning under a link's session, the other STOWED: the session ends STOPPED, in
STOPPING with its pending code, or, if it is an EXTEND and the lockout starts, by the order that is free (05 R86; log 9)
with INTERLOCK and WIND_LOCKOUT; its output is forced to zero unless it waits, its current or place is given up, a store
is asked, and the retract is created. An awning that its end puts back to STOWED is left out (log 52). The row stands
for the sample that trips (log 6), and a hall input's age stands still in Sleep (log 23). -/
def Obligations.WindTripRetractsAwnings : Prop :=
  ∀ s : State, Settled s → DriveAwayAgrees s → s.pulse.wind.on = true →
    s.settings.windTripCount ≤ s.wind.gusts + 1 →
    let out := allAwnings.filter fun a => decide (s.awnings[a].state ≠ .stowed)
    let tripped := { s with
      wind := { s.wind with gusts := 0, lockoutDue := some (s.now + minutes 10) }, events := posted .windTrip s }
    let moved := fun (u t : State) => exec .windTrip s = .next t ∧ Retracts .windTrip out u t
      ∧ t = { u with
          sessions := t.sessions, supply := t.supply, awnings := t.awnings, drive := t.drive
          control := { u.control with idleDue := t.control.idleDue } }
    (AtRest s → s.control.mode = .ready → ∃ t, moved tripped t
      ∧ t.control.idleDue = if out = [] then s.control.idleDue else none)
    ∧ (∀ (a : Awning) (x : Session), s.control.mode = .ready → s.sessions = [x] → x.cover = .one (.awning a) →
      x.op = .move → x.origin = .link → s.program.run = none → s.level.deferred = false →
      s.supply.allotments.map (·.holder) ++ s.supply.queue.map (·.holder) = [.session x.cover] →
      (∀ b : Awning, b ≠ a → s.awnings[b].state = .stowed) →
      s.awnings[a].state ≠ .stowed → awningRest a s ≠ .stowed →
      (x.dir = some .outward → chassisCondition s = .parked) →
      let codeOf := fun code : EndCode => if x.phase = .stopping then x.pendingEnd.getD code else code
      let ended := fun (code : EndCode) (reason : Option Reason) =>
        let u := { tripped with
          sessions := [], supply := { s.supply with allotments := [], queue := [] }
          drive := if x.phase = Phase.waiting then s.drive else upd s.drive (awningOutput a) forced,
          pulse := if x.phase = Phase.waiting then s.pulse else { s.pulse with
            inputs := upd s.pulse.inputs (awningHall a) (coasting s.drive[awningOutput a] s.now) },
          awnings := upd s.awnings a (fun e =>
            { e with state := awningRest a s, lastEnd := some ⟨code, reason, x.owner, .move⟩ })
          events := posted .sessionEnd tripped }
        { u with memory := storeAsked .posture u }
      ∃ (u t : State), (u = ended (codeOf .stopped) none ∨ x.dir = some .outward ∧ s.wind.lockoutDue = none
          ∧ u = ended (codeOf .interlock) (if codeOf .interlock = .interlock then some .windLockout else none))
        ∧ exec .windTrip s = .next t ∧ Retracts .windTrip [a] u t
        ∧ t = { u with
            sessions := t.sessions, supply := t.supply, awnings := t.awnings, drive := t.drive
            control := { s.control with idleDue := none }, freeCount := t.freeCount })
    ∧ ∀ since, AtRest s → s.control.mode = .sleep → s.control.wake = none → s.pulse.offSince = some since →
      ∃ t, moved { tripped with
          control := { s.control with
            mode := .ready, wake := some ⟨s.now + seconds 20, false⟩, wakeFrameMark := false }
          events := posted .mode tripped
          sampler := { s.sampler with
            running := true, frameStart := s.now, inForce := s.settings.slots
            pitch := { s.sampler.pitch with seeded := false }, roll := { s.sampler.roll with seeded := false } }
          pulse := { s.pulse with
            offSince := none
            inputs := updAll s.pulse.inputs fun _ h => { h with lastEdgeAt := h.lastEdgeAt + (s.now - since) } } } t
        ∧ t.control.idleDue = if out = [] ∧ ignitionOn s = false then some (s.now + minutes 30) else none

/-! ### Timers -/

/-- 04 R65, R67, R68, 06 R102, 08 R145: the keep deadline of a RUNNING slide session and the run limit of a RUNNING jack
session put it in STOPPING, with 0 written to its outputs; a HOLD slide's run limit is RUN_TIMEOUT; the keep deadline and
the wait limit of a WAITING session end it at once. Said where no other session exists. -/
def Obligations.SessionTimersEndSessions : Prop :=
  ∀ (x : Session) (due : Nat) (s : State), Settled s → s.control.mode = .ready → s.sessions = [x] → x.op = .move →
    x.origin = .link → s.program.run = none → s.level.deferred = false →
    let now := max s.now due
    let stopping := fun code : EndCode => { x with
      phase := .stopping, pendingEnd := some code, runLeft := x.timeLeft now, runFrom := none }
    let still := fun o : DriveOutput => { o with buffered := some 0 }
    (∀ i : Slide, x.cover = .one (.slide i) → x.phase = .running → x.keepDue = some due →
      s.drive[frontOutput i].applied ≠ 0 ∨ s.drive[rearOutput i].applied ≠ 0 →
      exec (.keepDeadlineExpiry (.slide i)) s = .next { s with
        now := now, sessions := [stopping .keepLost]
        slides := upd s.slides i fun e => { e with seating := .none, lastFront := 0, lastRear := 0 }
        drive := upd (upd s.drive (frontOutput i) still) (rearOutput i) still })
    ∧ (∀ (j : Jack) (began : Nat), x.cover = .one (.jack j) → x.phase = .running → x.runFrom = some began →
      due = began + x.runLeft → s.drive[extendValve j].applied ≠ 0 ∨ s.drive[retractValve j].applied ≠ 0 →
      exec (.runLimitExpiry (.jack j)) s = .next { s with
        now := now, sessions := [stopping .timeout]
        drive := upd (upd s.drive (extendValve j) still) (retractValve j) still })
    ∧ (∀ (i : Slide) (began : Nat), x.cover = .one (.slide i) → x.phase = .running → x.kind = .hold →
      x.runFrom = some began → due = began + x.runLeft →
      ∃ t, exec (.runLimitExpiry (.slide i)) s = .next t ∧ t.sessions = []
        ∧ t.slides[i].fault = ⟨some (s.slides[i].fault.kind.getD .runTimeout), s.slides[i].fault.kind.isSome,
            Vector.replicate 4 false⟩
        ∧ t.slides[i].lastEnd = some ⟨.fault, none, x.owner, .move⟩
        ∧ t.drive[frontOutput i].applied = 0 ∧ t.drive[rearOutput i].applied = 0)
    ∧ ∀ (i : Slide) (q : QueueEntry), x.cover = .one (.slide i) → x.phase = .waiting →
      s.supply.queue = [q] → q.holder = .session x.cover → s.supply.allotments = [] →
      s.slides[i].state = slideRest i s → s.slides[i].seating = .none →
      let ended := fun code : EndCode => { s with
        now := now, sessions := [], supply := { s.supply with queue := [] }
        slides := upd s.slides i fun e => { e with lastEnd := some ⟨code, none, x.owner, .move⟩ }
        events := posted .sessionEnd s, memory := storeAsked .posture s
        control := { s.control with idleDue := if ignitionOn s then none else some (now + minutes 30) } }
      (x.keepDue = some due → exec (.keepDeadlineExpiry (.slide i)) s = .next (ended .keepLost))
      ∧ (due = q.enteredAt + seconds 30 →
        exec (.waitLimitExpiry (.session (.slide i))) s = .next (ended .noSupply))

/-- 03 R48, 05 R74, R75, R87, 09 R159, 12 R200: a coast window closes; the lockout runs out; the chassis record goes stale
and stays the last record, and a condition that becomes UNKNOWN by it has drive-away evaluated again; the wake window returns a part without sessions and run to Sleep, and otherwise waits for their
end. -/
def Obligations.PlainTimersRunOut : Prop :=
  ∀ (due : Nat) (s : State), Settled s →
    let now := max s.now due
    (∀ (p : Hall) (w : Coast), s.pulse.inputs[p].coast = some w → w.closesAt = due →
      exec (.coastWindowClose p) s = .next { s with
        now := now, pulse := { s.pulse with inputs := upd s.pulse.inputs p fun h => { h with coast := none } } })
    ∧ (s.wind.lockoutDue = some due →
      exec .lockoutExpiry s = .next { s with now := now, wind := { s.wind with lockoutDue := none } })
    ∧ (s.interlock.staleDue = some due → s.control.mode ≠ .service → s.sessions = [] → DriveAwayAgrees s →
      exec .stalenessExpiry s = .next { s with
        now := now, interlock := { s.interlock with current := false, staleDue := none } })
    ∧ (s.interlock.staleDue = some due → s.control.mode ≠ .service → s.sessions = [] → AlarmFollows s →
      chassisCondition s ≠ .unknown → exec .stalenessExpiry s = .next { s with
        now := now
        interlock := { s.interlock with
          current := false, staleDue := none, driveAway := driveAwayHolds s, alarm := driveAwayHolds s }
        events := if driveAwayHolds s = true ∧ s.interlock.driveAway = false then posted .driveAway s else s.events })
    ∧ (s.control.wake = some ⟨due, false⟩ →
      if s.control.mode = .ready ∧ s.sessions = [] ∧ s.program.run = none
      then ∃ t, exec .wakeWindowExpiry s = .next t ∧ Slept { s with now := now } t
      else exec .wakeWindowExpiry s = .next { s with
        now := now, control := { s.control with wake := some ⟨due, true⟩ } })

/-- 07 R112 to R117, R121 to R124, 04 R68, R70, 06 R98, R103: the settle measurement of a level run and its five tests. The
residuals are the errors. TOO_STEEP; a jack that is not in CONTACT leads to RECONTACT, which extends it; LEVELLED into
HOLDING; LIMIT or NOT_REACHED at the last pass; otherwise the lift computation begins LIFT, or ends the run with LIMIT or
NOT_REACHED if no jack is to move. A decided run's session ends DONE, the pump stops and its current returns. Said for six
jacks at a stop, no other session and, of RECONTACT and LIFT, a chassis at a stand. -/
def Obligations.SettleMeasurementDecidesRun : Prop :=
  ∀ (x : Session) (due amps order : Nat) (s : State), Settled s → s.control.mode = .ready →
    s.sessions = [x] → x.cover = .allJacks → x.op = .level → x.origin = .link → x.phase = .running →
    s.level.state = .settle → s.level.settleDue = some due → s.level.deferred = false → s.program.run = none →
    s.supply.allotments = [⟨.pump [.allJacks], amps, some order⟩] → s.supply.queue = [] →
    (∀ j : Jack, (s.jacks[j].state = .contact → contact j s = true)
      ∧ s.drive[extendValve j].applied = 0 ∧ s.drive[retractValve j].applied = 0) →
    let now := max s.now due
    let ep := s.sampler.pitch.value - s.level.pitchTarget
    let er := s.sampler.roll.value - s.level.rollTarget
    let measured := { s.level with residualPitch := ep, residualRoll := er, settleDue := none }
    let staged := [{ x with runLimit := seconds 60, runLeft := seconds 60, runFrom := some now }]
    let extends_ := fun (v : Vector DriveOutput 23) (t : State) (j : Jack) (duty : Option Nat) =>
      t.drive[extendValve j] = { v[extendValve j] with buffered := if duty = none then v[extendValve j].buffered else duty }
      ∧ t.drive[retractValve j]
        = { v[retractValve j] with buffered := if duty = none then v[retractValve j].buffered else some 0 }
    let decided := fun (outcome : LevelOutcome) (clamped : Bool) => ∃ t, exec .settleTimerExpiry s = .next t
      ∧ t.now = now ∧ t.sessions = []
      ∧ t.level = { measured with
          state := if outcome = .levelled then .holding else .idle
          outcome := outcome, clamped := clamped
          drift := if outcome = .levelled then 0 else s.level.drift }
      ∧ t.events = posted .sessionEnd { s with
          events := posted (if outcome = .levelled then .levelDone else .levelFailed) s }
      ∧ t.supply = { s.supply with allotments := [] }
      ∧ (∀ j : Jack, t.jacks[j] = { s.jacks[j] with lastEnd := some ⟨.done, none, x.owner, .level⟩ })
      ∧ t.drive[pumpOutput] = { s.drive[pumpOutput] with applied := 0, buffered := none, pullInAt := none }
      ∧ (∀ j : Jack, t.drive[extendValve j] = { s.drive[extendValve j] with buffered := some 0 }
          ∧ t.drive[retractValve j] = { s.drive[retractValve j] with buffered := some 0 })
      ∧ (∀ o : Output, o.val < 10 → t.drive[o] = s.drive[o])
      ∧ t.memory = storeAsked .posture s
      ∧ t.control = { s.control with
          idleDue := if ignitionOn s then none else some (now + minutes 30) }
      ∧ t = { s with
          now := t.now, sessions := [], level := t.level, events := t.events, supply := t.supply, jacks := t.jacks
          drive := t.drive, memory := t.memory, control := t.control }
    let short : LevelOutcome := if s.level.clamped then .limit else .notReached
    let level_ := ep.natAbs ≤ s.settings.tolerance ∧ er.natAbs ≤ s.settings.tolerance
    let grounded := ∀ j : Jack, s.jacks[j].state = .contact
    (grounded →
      (tooSteep s = true → decided .tooSteep s.level.clamped)
      ∧ (tooSteep s = false → level_ → decided .levelled s.level.clamped)
      ∧ (tooSteep s = false → ¬level_ → s.level.passes = s.level.passLimit → decided short s.level.clamped))
    ∧ (chassisMoving s = false → s.interlock.driveAway = false → tooSteep s = false →
      (¬grounded → ∃ t, exec .settleTimerExpiry s = .next t
        ∧ let starts := fun j : Jack => s.jacks[j].state ≠ .contact ∧ s.jacks[j].state ≠ .extending
        t.level = { measured with
          state := .recontact
          hanging := updAll s.level.hanging fun j m => m && !decide (s.jacks[j].state = .contact) }
        ∧ (∀ j : Jack, t.jacks[j] = { s.jacks[j] with state := if starts j then .extending else s.jacks[j].state }
            ∧ extends_ s.drive t j (if starts j then some 600 else none))
        ∧ (∀ o : Output, o.val ≤ 10 → t.drive[o] = s.drive[o])
        ∧ t = { s with now := now, sessions := staged, level := t.level, jacks := t.jacks, drive := t.drive })
      ∧ (grounded → ¬level_ → s.level.passes ≠ s.level.passLimit →
        let turn := fun j : Jack => (s.settings.jackX[j] * ep + s.settings.jackY[j] * er) * 1745
        let height := fun j : Jack =>
          if 0 ≤ turn j then (turn j + 500000) / 1000000 else -((-turn j + 500000) / 1000000)
        ∀ top : Jack, (∀ j : Jack, height j ≤ height top) →
          let lift := fun j : Jack => (height top - height j).toNat
          let start := fun j : Jack => jackStroke j s
          let limit := fun j : Jack => s.settings.maxStroke[j]
          let target := fun j : Jack => if limit j ≤ start j then start j else min (start j + lift j) (limit j)
          let planned := fun j : Jack => target j - start j
          let limited := ∃ j : Jack, if limit j ≤ start j then 3 < lift j else limit j < start j + lift j
          let clamped := s.level.clamped || decide limited
          ((∀ j : Jack, planned j ≤ 3) → decided (if clamped then .limit else .notReached) clamped)
          ∧ ∀ most : Jack, 3 < planned most → (∀ j : Jack, planned j ≤ planned most) →
            ∃ t, exec .settleTimerExpiry s = .next t
              ∧ (∀ j : Jack, t.level.plan[j] =
                { start := start j, target := target j, planned := planned j, moving := decide (3 < planned j)
                  duty := if 3 < planned j then 250 + 750 * planned j / planned most else 0, held := false })
              ∧ t.level = { measured with
                  state := .lift, plan := t.level.plan, passes := s.level.passes + 1, clamped := clamped
                  basePitch := ep.natAbs, baseRoll := er.natAbs
                  guardPitch := s.level.pitchTarget, guardRoll := s.level.rollTarget
                  hangCount := Vector.replicate 6 0, hanging := Vector.replicate 6 false }
              ∧ (∀ j : Jack, t.jacks[j] = { s.jacks[j] with state := if 3 < planned j then .extending else .contact }
                  ∧ extends_ s.drive t j (if 3 < planned j then some t.level.plan[j].duty else none))
              ∧ (∀ o : Output, o.val ≤ 10 → t.drive[o] = s.drive[o])
              ∧ t = { s with now := now, sessions := staged, level := t.level, jacks := t.jacks, drive := t.drive }))
end

