-- ==== Sys2Proof/Laws/Vectors.lean ====
section
/-! SUPPORT. Reading the vectors of units after an update. -/

namespace Sys2Proof.Machine

/-- Reading an entry after one entry is replaced. -/
@[simp] theorem upd_get {α : Type} {n : Nat} (v : Vector α n) (i : Fin n) (k : Nat) (hk : k < n) (f : α → α) :
    (upd v i f)[k] = if i.val = k then f v[k] else v[k] := by
  rw [upd, Vector.getElem_set]
  split
  · next h => subst h; rfl
  · rfl

theorem foldl_upd_get {α : Type} {n : Nat} (f : Fin n → α → α) (l : List (Fin n)) (hl : l.Nodup) (v : Vector α n)
    (k : Nat) (hk : k < n) :
    (l.foldl (fun v i => upd v i (f i)) v)[k] = if ⟨k, hk⟩ ∈ l then f ⟨k, hk⟩ v[k] else v[k] := by
  induction l generalizing v with
  | nil => simp
  | cons i l ih =>
    obtain ⟨hi, hl⟩ := List.nodup_cons.mp hl
    rw [List.foldl_cons, ih hl, upd_get]
    by_cases hik : i.val = k
    · subst hik; simp [hi]
    · have hne : ¬(⟨k, hk⟩ : Fin n) = i := fun h => hik (by rw [← h])
      simp [hik, hne]

/-- Reading an entry after every entry is replaced. -/
@[simp] theorem updAll_get {α : Type} {n : Nat} (v : Vector α n) (f : Fin n → α → α) (k : Nat) (hk : k < n) :
    (updAll v f)[k] = f ⟨k, hk⟩ v[k] := by
  rw [updAll, foldl_upd_get f _ (List.nodup_finRange n)]
  simp

end Sys2Proof.Machine
end

