-- ==== Sys2Proof/Laws/Same.lean ====
section
/-! SUPPORT. Operations that leave alone everything the sound-state conditions read: the drive outputs, the pulse inputs,
levels, marks, duties, timers and the fields of a session other than its channels, operation and direction. -/

namespace Sys2Proof.Machine

/-- What the sound-state conditions read of a session. -/
def Session.key (x : Session) : Cover × Operation × Option Dir := (x.cover, x.op, x.dir)

/-- `t` agrees with `s` in everything the sound-state conditions read. -/
structure Same (s t : State) : Prop where
  pending : t.pending = s.pending
  now : t.now = s.now
  powered : t.powered = s.powered
  events : t.events = s.events
  interlock : t.interlock = s.interlock
  memory : t.memory = s.memory
  supply : t.supply = s.supply
  keys : t.sessions.map Session.key = s.sessions.map Session.key
  stowed : ∀ c, isStowed c t = isStowed c s

theorem Same.rfl {s : State} : Same s s := ⟨.refl _, .refl _, .refl _, .refl _, .refl _, .refl _, .refl _, .refl _, fun _ => .refl _⟩

theorem Same.trans {s t u : State} (h : Same s t) (g : Same t u) : Same s u :=
  ⟨g.pending.trans h.pending, g.now.trans h.now, g.powered.trans h.powered, g.events.trans h.events,
   g.interlock.trans h.interlock, g.memory.trans h.memory, g.supply.trans h.supply, g.keys.trans h.keys,
   fun c => (g.stowed c).trans (h.stowed c)⟩

theorem Same.ite {s t u : State} {c : Prop} [Decidable c] (ht : Same s t) (hu : Same s u) :
    Same s (if c then t else u) := by split <;> assumption

theorem Same.foldl {α : Type} {f : State → α → State} (hf : ∀ s a, Same s (f s a)) (l : List α) (s : State) :
    Same s (l.foldl f s) := by
  induction l generalizing s with
  | nil => exact .rfl
  | cons a l ih => exact (hf s a).trans (ih _)

/-- A state that differs in none of the fields named here. -/
theorem Same.of_eq {s t : State} (pending : t.pending = s.pending) (now : t.now = s.now)
    (powered : t.powered = s.powered) (events : t.events = s.events) (interlock : t.interlock = s.interlock)
    (memory : t.memory = s.memory) (supply : t.supply = s.supply) (sessions : t.sessions = s.sessions)
    (jacks : t.jacks = s.jacks) (slides : t.slides = s.slides) (awnings : t.awnings = s.awnings) : Same s t :=
  ⟨pending, now, powered, events, interlock, memory, supply, by rw [sessions], fun c => by
    cases c <;> simp [isStowed, jacks, slides, awnings]⟩

/-! ### Work, choices, outputs, inputs -/

theorem pushUrgent_same (t : Task) (s : State) : Same s (pushUrgent t s) := by apply Same.of_eq <;> rfl

theorem pushLater_same (t : Task) (s : State) : Same s (pushLater t s) := by apply Same.of_eq <;> rfl

theorem drawChoice_same (s : State) : Same s (drawChoice s).2 := by apply Same.of_eq <;> rfl

theorem drawIf_same (needed dflt : Bool) (s : State) : Same s (drawIf needed dflt s).2 := by
  unfold drawIf; split
  · exact drawChoice_same s
  · exact .rfl

theorem setOutput_same (o : Output) (f : DriveOutput → DriveOutput) (s : State) : Same s (setOutput o f s) := by
  apply Same.of_eq <;> rfl

theorem setHall_same (p : Hall) (f : HallInput → HallInput) (s : State) : Same s (setHall p f s) := by
  apply Same.of_eq <;> rfl

theorem writeDuty_same (o : Output) (d : Nat) (s : State) : Same s (writeDuty o d s) := by
  unfold writeDuty; split
  · exact .rfl
  · exact setOutput_same ..

theorem writeDir_same (o : Output) (d : Dir) (s : State) : Same s (writeDir o d s) := by
  unfold writeDir; repeat' split
  · exact .rfl
  · exact setOutput_same ..
  · exact .rfl

theorem tellArbiter_same (o : Output) (s : State) : Same s (tellArbiter o s) := by
  unfold tellArbiter; repeat' split
  · exact .rfl
  · exact .rfl
  · exact pushUrgent_same ..

theorem reportZero_same (o : Output) (d : Option Dir) (s : State) : Same s (reportZero o d s) := by
  unfold reportZero; dsimp only; split
  · exact tellArbiter_same ..
  · exact (setHall_same ..).trans (tellArbiter_same ..)

theorem reportRise_same (o : Output) (old new : Nat) (s : State) : Same s (reportRise o old new s) := by
  unfold reportRise; split
  · exact .rfl
  · exact setHall_same ..

/-! ### Slides and awnings: everything but the state -/

theorem updSlide_same (i : Slide) (f : SlideEntry → SlideEntry) (hf : ∀ e, (f e).state = e.state) (s : State) :
    Same s (updSlide i f s) := by
  refine ⟨rfl, rfl, rfl, rfl, rfl, rfl, rfl, rfl, fun c => ?_⟩
  cases c with
  | slide k => by_cases h : i.val = k.val <;> simp [isStowed, updSlide, h, hf]
  | jack j => rfl
  | awning a => rfl

theorem updAwning_same (a : Awning) (f : AwningEntry → AwningEntry) (hf : ∀ e, (f e).state = e.state) (s : State) :
    Same s (updAwning a f s) := by
  refine ⟨rfl, rfl, rfl, rfl, rfl, rfl, rfl, rfl, fun c => ?_⟩
  cases c with
  | awning k => by_cases h : a.val = k.val <;> simp [isStowed, updAwning, h, hf]
  | jack j => rfl
  | slide i => rfl

theorem updJack_same (j : Jack) (f : JackEntry → JackEntry) (hf : ∀ e, (f e).state = e.state) (s : State) :
    Same s { s with jacks := upd s.jacks j f } := by
  refine ⟨rfl, rfl, rfl, rfl, rfl, rfl, rfl, rfl, fun c => ?_⟩
  cases c with
  | jack k => by_cases h : j.val = k.val <;> simp [isStowed, h, hf]
  | slide i => rfl
  | awning a => rfl

theorem setLastEnd_same (x : LastEnd) (c : Channel) (s : State) : Same s (setLastEnd x c s) := by
  cases c with
  | jack j => exact updJack_same j _ (by intro; rfl) s
  | slide i => exact updSlide_same i _ (by intro; rfl) s
  | awning a => exact updAwning_same a _ (by intro; rfl) s

theorem setFault_same (h : FaultHolder) (r : FaultRec) (s : State) : Same s (setFault h r s) := by
  cases h with
  | pump => apply Same.of_eq <;> rfl
  | channel c =>
    cases c with
    | jack j => exact updJack_same j _ (by intro; rfl) s
    | slide i => exact updSlide_same i _ (by intro; rfl) s
    | awning a => exact updAwning_same a _ (by intro; rfl) s

theorem forgetDuty_same (o : Output) (s : State) : Same s (forgetDuty o s) := by
  unfold forgetDuty; split
  · exact updSlide_same _ _ (by intro; split <;> rfl) s
  · exact .rfl

theorem forceOne_same (o : Output) (s : State) : Same s (forceOne o s) := by
  unfold forceOne; dsimp only; split
  · exact (setOutput_same ..).trans (forgetDuty_same ..)
  · exact ((setOutput_same ..).trans (forgetDuty_same ..)).trans (reportZero_same ..)

theorem forceZero_same (os : List Output) (s : State) : Same s (forceZero os s) := .foldl (fun s o => forceOne_same o s) os s

theorem applyDuty_same (o : Output) (d : Nat) (s : State) : Same s (applyDuty o d s) := by
  have h := (setOutput_same o (fun r => { r with
    applied := d, lastDir := if d ≠ 0 ∧ r.dir.isSome then r.dir else r.lastDir }) s).trans
    (reportRise_same o s.drive[o].applied d _)
  exact .ite (h.trans (reportZero_same ..)) h

theorem clearBuffer_same (o : Output) (s : State) : Same s (clearBuffer o s) := setOutput_same ..

theorem passBoundary_same (o : Output) (s : State) : Same s (passBoundary o s) := setOutput_same ..

theorem neutralDrive_same (keepLast : Bool) (s : State) : Same s (neutralDrive keepLast s) := by
  unfold neutralDrive; apply Same.of_eq <;> rfl

theorem pumpBoundary_same (s : State) : Same s (pumpBoundary s) := by
  unfold pumpBoundary; extract_lets r; split
  · exact .rfl
  · exact Same.trans (.ite (clearBuffer_same ..) .rfl) (applyDuty_same ..)

theorem endPullIn_same (o : Output) (s : State) : Same s (endPullIn o s) := by
  unfold endPullIn; repeat' split
  · exact .rfl
  · exact (setOutput_same ..).trans (applyDuty_same ..)
  · exact .rfl

theorem retractBoundary_same (o : Output) (s : State) : Same s (retractBoundary o s) := by
  unfold retractBoundary; dsimp only; repeat' split
  · exact endPullIn_same ..
  · exact (setOutput_same ..).trans (applyDuty_same ..)
  · exact (setOutput_same ..).trans (applyDuty_same ..)
  · exact (clearBuffer_same ..).trans (endPullIn_same ..)

theorem extendBoundary_same (o : Output) (s : State) : Same s (extendBoundary o s) := by
  unfold extendBoundary; split
  · exact .rfl
  · exact (clearBuffer_same ..).trans (applyDuty_same ..)

/-! ### Sessions: everything but channels, operation and direction -/

theorem updSession_same (k : Cover) (f : Session → Session) (hf : ∀ x, (f x).key = x.key) (s : State) :
    Same s (updSession k f s) := by
  refine ⟨rfl, rfl, rfl, rfl, rfl, rfl, rfl, ?_, fun c => by cases c <;> rfl⟩
  simp only [updSession, List.map_map]
  apply List.map_congr_left
  intro x _
  simp only [Function.comp]
  split
  · exact hf x
  · rfl

theorem setLevelState_same (st : LevelState) (s : State) : Same s (setLevelState st s) := by
  unfold setLevelState; dsimp only; repeat' split
  all_goals apply Same.of_eq <;> rfl

theorem clearSeating_same (k : Cover) (s : State) : Same s (clearSeating k s) := by
  unfold clearSeating; split
  · exact updSlide_same _ _ (by intro; rfl) s
  · exact .rfl

theorem clearSettle_same (k : Cover) (s : State) : Same s (clearSettle k s) := by
  unfold clearSettle; split
  · apply Same.of_eq <;> rfl
  · exact .rfl

theorem writeZeros_same (k : Cover) (s : State) : Same s (writeZeros k s) :=
  .foldl (fun s o => (writeDuty_same o 0 s).trans (forgetDuty_same o _)) _ s

/-! ### Slide and awning drives -/

theorem writeMotor_same (i : Slide) (m : Motor) (d : Nat) (s : State) : Same s (writeMotor i m d s) :=
  (writeDuty_same ..).trans (updSlide_same _ _ (by intro; cases m <;> rfl) _)

theorem driveMotor_same (i : Slide) (m : Motor) (x : Session) (always : Bool) (s : State) :
    Same s (driveMotor i m x always s) := by
  unfold driveMotor; dsimp only; repeat' split
  · exact .rfl
  · exact writeMotor_same ..
  · exact .rfl

theorem driveSlide_same (i : Slide) (always : Bool) (s : State) : Same s (driveSlide i always s) := by
  unfold driveSlide; split
  · exact .rfl
  · exact (driveMotor_same ..).trans (driveMotor_same ..)

theorem directSlide_same (i : Slide) (d : Dir) (s : State) : Same s (directSlide i d s) :=
  ((writeDir_same ..).trans (writeDir_same ..)).trans (updSlide_same _ _ (by intro; rfl) _)

theorem recentre_same (i : Slide) (s : State) : Same s (recentre i s) := by
  unfold recentre; dsimp only; split
  · exact (setHall_same ..).trans (setHall_same ..)
  · exact .rfl

theorem seatFirst_same (i : Slide) (m : Motor) (s : State) : Same s (seatFirst i m s) :=
  ((updSlide_same i _ (by intro; rfl) s).trans (writeMotor_same ..)).trans (driveSlide_same ..)

theorem zeroInputs_same (c : Channel) (s : State) : Same s (zeroInputs c s) := .foldl (fun s p => setHall_same p _ s) _ s

theorem driveAwning_same (a : Awning) (s : State) : Same s (driveAwning a s) := by
  unfold driveAwning; repeat' split
  · exact .rfl
  · exact .rfl
  · exact (writeDir_same ..).trans (writeDuty_same ..)

end Sys2Proof.Machine
end

