-- ==== Sys2Proof/Laws/Sheds.lean ====
section
/-! SUPPORT. Operations that may end sessions, return current, post events, change channel states and ask for stores, but
begin nothing: they keep the lines, the write order and the drive-away flag, and shed sessions, amperes and queue
entries at most. -/

namespace Sys2Proof.Machine

/-- `t` is `s` with, at most, sessions, amperes and queue entries shed; the drive-away flag may not have followed yet. -/
structure Loose (s t : State) : Prop where
  pending : t.pending = s.pending
  now : t.now = s.now
  powered : t.powered = s.powered
  record : t.interlock.record = s.interlock.record
  current : t.interlock.current = s.interlock.current
  lines : LinesAgree s → LinesAgree t
  alarm : AlarmFollows s → AlarmFollows t
  writes : WritesOrdered s → WritesOrdered t
  supplyState : t.supply.state = s.supply.state
  held : heldSum t ≤ heldSum s
  queue : t.supply.queue.length ≤ s.supply.queue.length
  table : t.supply.allotments.length ≤ s.supply.allotments.length
  keys : (t.sessions.map Session.key).Sublist (s.sessions.map Session.key)

/-- `Loose`, and the drive-away flag has followed. -/
structure Sheds (s t : State) : Prop extends Loose s t where
  driveAway : DriveAwayAgrees s → DriveAwayAgrees t

theorem Loose.rfl {s : State} : Loose s s :=
  ⟨.refl _, .refl _, .refl _, .refl _, .refl _, id, id, id, .refl _, le_refl _, le_refl _, le_refl _,
   List.Sublist.refl _⟩

theorem Loose.trans {s t u : State} (h : Loose s t) (g : Loose t u) : Loose s u :=
  ⟨g.pending.trans h.pending, g.now.trans h.now, g.powered.trans h.powered, g.record.trans h.record,
   g.current.trans h.current, g.lines ∘ h.lines, g.alarm ∘ h.alarm, g.writes ∘ h.writes,
   g.supplyState.trans h.supplyState, g.held.trans h.held, g.queue.trans h.queue,
   g.table.trans h.table, g.keys.trans h.keys⟩

theorem Sheds.rfl {s : State} : Sheds s s := ⟨.rfl, id⟩

theorem Sheds.trans {s t u : State} (h : Sheds s t) (g : Sheds t u) : Sheds s u :=
  ⟨h.toLoose.trans g.toLoose, g.driveAway ∘ h.driveAway⟩

theorem Sheds.ite {s t u : State} {c : Prop} [Decidable c] (ht : Sheds s t) (hu : Sheds s u) :
    Sheds s (if c then t else u) := by split <;> assumption

theorem Sheds.foldl {α : Type} {f : State → α → State} (hf : ∀ s a, Sheds s (f s a)) (l : List α) (s : State) :
    Sheds s (l.foldl f s) := by
  induction l generalizing s with
  | nil => exact .rfl
  | cons a l ih => exact (hf s a).trans (ih _)

theorem conditions_same {s t : State} (record : t.interlock.record = s.interlock.record)
    (stowed : ∀ c, isStowed c t = isStowed c s) : driveAwayHolds t = driveAwayHolds s := by
  simp [driveAwayHolds, chassisMoving, record, stowed]

theorem Same.sheds {s t : State} (h : Same s t) : Sheds s t where
  pending := h.pending
  now := h.now
  powered := h.powered
  record := by rw [h.interlock]
  current := by rw [h.interlock]
  lines := by unfold LinesAgree; rw [h.events]; exact id
  alarm := by unfold AlarmFollows; rw [h.interlock]; exact id
  writes := by unfold WritesOrdered; rw [h.memory]; exact id
  supplyState := by rw [h.supply]
  held := by unfold heldSum; rw [h.supply]
  queue := by rw [h.supply]
  table := by rw [h.supply]
  keys := by rw [h.keys]
  driveAway := by
    unfold DriveAwayAgrees AlarmFollows
    rw [conditions_same (by rw [h.interlock]) h.stowed, h.interlock]; exact id

/-! ### Events and drive-away -/

theorem EventBox.add_agrees (e : Event) (b : EventBox) :
    (EventBox.add e b).line = (((EventBox.add e b).pending &&& (EventBox.add e b).enable) != 0) := rfl

theorem postEvent_lines (e : Event) (s : State) : LinesAgree (postEvent e s) := by
  intro l; simp [postEvent, EventBox.add_agrees]

theorem postEvent_sheds (e : Event) (s : State) : Sheds s (postEvent e s) :=
  { Same.rfl.sheds with lines := fun _ => postEvent_lines e s, alarm := id, driveAway := id }

theorem postAny_sheds (e : Option Event) (s : State) : Sheds s (postAny e s) := by
  cases e
  · exact .rfl
  · exact postEvent_sheds ..

/-- After judging, the flag says whether the condition holds. -/
theorem judgeDriveAway_agrees (s : State) (h : AlarmFollows s) :
    DriveAwayAgrees (judgeDriveAway s) := by
  unfold judgeDriveAway; dsimp only; split
  · next heq => exact ⟨heq.symm, h⟩
  · split
    · next hh => exact ⟨hh.symm, rfl⟩
    · next hh => exact ⟨((Bool.not_eq_true _).mp hh).symm, rfl⟩

theorem judgeDriveAway_loose (s : State) : Loose s (judgeDriveAway s) := by
  unfold judgeDriveAway; dsimp only; repeat' split
  · exact .rfl
  · exact { Loose.rfl with lines := fun _ => postEvent_lines _ _, alarm := fun _ => rfl }
  · exact { Loose.rfl with alarm := fun _ => rfl }

theorem Loose.judged {s t : State} (h : Loose s t) : Sheds s (judgeDriveAway t) :=
  { h.trans (judgeDriveAway_loose t) with driveAway := fun a => judgeDriveAway_agrees t (h.alarm a.2) }

theorem judgeDriveAway_sheds (s : State) : Sheds s (judgeDriveAway s) := Loose.rfl.judged

/-- A state that differs at most in what no sound-state condition but drive-away reads. -/
theorem Loose.of_eq {s t : State} (pending : t.pending = s.pending) (now : t.now = s.now)
    (powered : t.powered = s.powered) (events : t.events = s.events) (interlock : t.interlock = s.interlock)
    (memory : t.memory = s.memory) (supply : t.supply = s.supply) (sessions : t.sessions = s.sessions) : Loose s t where
  pending := pending
  now := now
  powered := powered
  record := by rw [interlock]
  current := by rw [interlock]
  lines := by unfold LinesAgree; rw [events]; exact id
  alarm := by unfold AlarmFollows; rw [interlock]; exact id
  writes := by unfold WritesOrdered; rw [memory]; exact id
  supplyState := by rw [supply]
  held := by unfold heldSum; rw [supply]
  queue := by rw [supply]
  table := by rw [supply]
  keys := by rw [sessions]

/-! ### Channel states -/

theorem setJackState_sheds (j : Jack) (st : JackState) (s : State) : Sheds s (setJackState j st s) := by
  unfold setJackState; split
  · exact .rfl
  · refine Loose.judged ?_; apply Loose.of_eq <;> rfl

theorem setSlideState_sheds (i : Slide) (st : SlideState) (s : State) : Sheds s (setSlideState i st s) := by
  unfold setSlideState; dsimp only; split
  · exact .rfl
  · refine Loose.judged ?_; split <;> apply Loose.of_eq <;> rfl

theorem setAwningState_sheds (a : Awning) (st : AwningState) (s : State) : Sheds s (setAwningState a st s) := by
  unfold setAwningState; split
  · exact .rfl
  · refine Loose.judged ?_; apply Loose.of_eq <;> rfl

theorem restJack_sheds (j : Jack) (s : State) : Sheds s (restJack j s) := setJackState_sheds ..

theorem restChannel_sheds (c : Channel) (s : State) : Sheds s (restChannel c s) := by
  cases c with
  | jack j => exact restJack_sheds j s
  | slide i =>
    exact (updSlide_same i (fun e => { e with seating := .none }) (by intro; rfl) s).sheds.trans (setSlideState_sheds ..)
  | awning a => exact setAwningState_sheds ..

theorem restCover_sheds (k : Cover) (s : State) : Sheds s (restCover k s) := .foldl (fun s c => restChannel_sheds c s) _ s

/-! ### Memory -/

theorem beginWrite_pending (b : Block) (s : State) : (beginWrite b s).memory.pendingWrites = s.memory.pendingWrites := by
  cases b <;> rfl

theorem beginWrite_writing (b : Block) (s : State) : (beginWrite b s).memory.writing ≠ none := by
  cases b <;> exact Option.some_ne_none _

theorem beginWrite_ordered {b : Block} {s : State} (h : s.memory.pendingWrites.Nodup)
    (hm : Memory.wf s.memory.bytes = true) : WritesOrdered (beginWrite b s) :=
  ⟨by rw [beginWrite_pending]; exact h, fun hn => absurd hn (beginWrite_writing b s), by cases b <;> exact hm⟩

theorem askStore_ordered {b : Block} {s : State} (h : WritesOrdered s) : WritesOrdered (askStore b s) := by
  unfold askStore; repeat' split
  · exact beginWrite_ordered h.1 h.2.2
  · exact h
  · next hb hm =>
    refine ⟨List.nodup_append.mpr ⟨h.1, by simp, ?_⟩, fun hn => absurd ?_ hb, h.2.2⟩
    · rintro x hx y hy rfl; exact hm (by simpa using List.mem_singleton.mp hy ▸ hx)
    · have hn : s.memory.writing = none := hn
      simp [hn, h.2.1 hn]

theorem askStore_sheds (b : Block) (s : State) : Sheds s (askStore b s) := by
  have h : Sheds s { askStore b s with memory := s.memory } := by
    unfold askStore; repeat' split
    all_goals (try cases b) <;> exact .rfl
  exact { h with lines := h.lines, alarm := h.alarm, writes := askStore_ordered, driveAway := h.driveAway }

theorem nextWrite_ordered {s : State} (h : WritesOrdered s) : WritesOrdered (nextWrite s) := by
  unfold nextWrite; dsimp only; split
  · next he => exact ⟨by simp [he], fun _ => he, h.2.2⟩
  · next b rest he => exact beginWrite_ordered (List.nodup_cons.mp (he ▸ h.1)).2 h.2.2

theorem storeIfEmpty_sheds (s : State) : Sheds s (storeIfEmpty s) := .ite (askStore_sheds ..) .rfl

/-! ### Outputs, levels, ends -/

theorem forceZero_sheds (os : List Output) (s : State) : Sheds s (forceZero os s) := (forceZero_same os s).sheds

theorem setLevelState_sheds (st : LevelState) (s : State) : Sheds s (setLevelState st s) := (setLevelState_same st s).sheds

theorem changeMode_sheds (m : DeviceMode) (s : State) : Sheds s (changeMode m s) :=
  (Same.of_eq (s := s) (t := { s with control.mode := m }) rfl rfl rfl rfl rfl rfl rfl rfl rfl rfl rfl).sheds.trans (postEvent_sheds ..)

/-! ### Held current -/

/-- What an entry counts for in the held sum. -/
def Allotment.weight (a : Allotment) : Nat := if a.order.isSome then a.amps else 0

theorem foldl_amps (l : List Allotment) (n : Nat) :
    l.foldl (fun acc a => acc + a.amps) n = n + (l.map (·.amps)).sum := by
  induction l generalizing n with
  | nil => rfl
  | cons a l ih => simp [ih, Nat.add_assoc]

/-- The held sum is the sum of the weights. -/
theorem heldIn_eq (l : List Allotment) : heldIn l = (l.map Allotment.weight).sum := by
  rw [heldIn, foldl_amps, Nat.zero_add]
  induction l with
  | nil => rfl
  | cons a l ih =>
    by_cases h : a.order.isSome <;> simp [Allotment.weight, h, ih]

@[simp] theorem heldIn_append (l m : List Allotment) : heldIn (l ++ m) = heldIn l + heldIn m := by
  simp [heldIn_eq]

theorem heldIn_filterMap (f : Allotment → Option Allotment)
    (hf : ∀ a b, f a = some b → b.amps = a.amps ∧ b.order = a.order) (l : List Allotment) :
    heldIn (l.filterMap f) ≤ heldIn l := by
  rw [heldIn_eq, heldIn_eq]
  induction l with
  | nil => simp
  | cons a l ih =>
    cases h : f a with
    | none => simp [h]; omega
    | some b =>
      have hb := hf a b h
      have hw : b.weight = a.weight := by simp [Allotment.weight, hb.1, hb.2]
      simp [h, hw]; omega

theorem heldIn_filter (p : Allotment → Bool) (l : List Allotment) : heldIn (l.filter p) ≤ heldIn l := by
  rw [heldIn_eq, heldIn_eq]
  exact (List.Sublist.map _ List.filter_sublist).sum_le_sum (fun _ _ => Nat.zero_le _)

theorem heldIn_map (f : Allotment → Allotment) (hf : ∀ a, (f a).amps = a.amps ∧ (f a).order = a.order)
    (l : List Allotment) : heldIn (l.map f) = heldIn l := by
  rw [heldIn_eq, heldIn_eq, List.map_map]
  congr 1
  exact List.map_congr_left fun a _ => by simp [Allotment.weight, hf a]

theorem Allotment.without_keeps (k : Cover) (a b : Allotment) (h : a.without k = some b) :
    b.amps = a.amps ∧ b.order = a.order := by
  obtain ⟨x, -, rfl⟩ := Option.map_eq_some_iff.mp h
  exact ⟨rfl, rfl⟩

theorem stopPumpIfIdle_same (had : Bool) (s : State) : Same s (stopPumpIfIdle had s) := .ite (forceOne_same ..) .rfl

/-- Fewer allotments and a shorter queue, nothing else. -/
theorem Sheds.of_supply {s : State} (table : List Allotment) (queue : List QueueEntry)
    (ht : heldIn table ≤ heldSum s) (hq : queue.length ≤ s.supply.queue.length)
    (hl : table.length ≤ s.supply.allotments.length) :
    Sheds s { s with supply.allotments := table, supply.queue := queue } :=
  { Sheds.rfl (s := s) with held := ht, queue := hq, table := hl, lines := id, alarm := id, writes := id, driveAway := id }

theorem releaseCurrent_sheds (k : Cover) (s : State) : Sheds s (releaseCurrent k s) :=
  (Sheds.of_supply _ _ (heldIn_filterMap _ (Allotment.without_keeps k) _) (List.length_filterMap_le ..)
    (List.length_filterMap_le ..)).trans
    (stopPumpIfIdle_same ..).sheds

theorem removeSession_sheds (k : Cover) (s : State) : Sheds s (removeSession k s) :=
  { Sheds.rfl (s := s) with
    keys := List.filter_sublist.map _, lines := id, alarm := id, writes := id, driveAway := id }

/-! ### The end of a session -/

theorem level_sheds (s : State) (x : LevelUnit) : Sheds s { s with level := x } :=
  (Same.of_eq (s := s) (t := { s with level := x }) rfl rfl rfl rfl rfl rfl rfl rfl rfl rfl rfl).sheds

theorem endLevelRun_sheds (op : Operation) (code : EndCode) (s : State) : Sheds s (endLevelRun op code s) := by
  have h : ∀ op, Sheds s
      (postAny (runEvent op code (runOutcome code s.level.outcome))
        (setLevelState (if code = .done ∧ runOutcome code s.level.outcome = .levelled then .holding else .idle)
          { s with level.outcome := runOutcome code s.level.outcome, level.settleDue := none })) := fun op =>
    ((level_sheds s _).trans (setLevelState_sheds ..)).trans (postAny_sheds ..)
  cases op
  · exact .rfl
  · exact h _
  · exact h _
  · exact setLevelState_sheds ..

theorem pushLater_sheds (t : Task) (s : State) : Sheds s (pushLater t s) := (pushLater_same t s).sheds

theorem pushUrgent_sheds (t : Task) (s : State) : Sheds s (pushUrgent t s) := (pushUrgent_same t s).sheds

theorem endTask_sheds (x : Session) (code : EndCode) (s : State) : Sheds s (endTask x code s) := by
  unfold endTask; split
  · exact pushLater_sheds ..
  · exact .rfl

/-- What the end of a session can do; nothing if there is no such session. -/
theorem endNow_sheds (k : Cover) (code : EndCode) (reason : Option Reason) (s : State) :
    Sheds s (endNow k code reason s) := by
  unfold endNow; split
  · exact .rfl
  · next x _ =>
    have h1 := ((removeSession_sheds k s).trans (releaseCurrent_sheds k _)).trans (restCover_sheds k _)
    have h2 := h1.trans (Sheds.foldl (fun s c => (setLastEnd_same ⟨code, reason, x.owner, x.op⟩ c s).sheds) k.channels _)
    exact (((((h2.trans (endLevelRun_sheds x.op code _)).trans (postEvent_sheds ..)).trans (storeIfEmpty_sheds _)).trans
      (pushLater_sheds ..)).trans (endTask_sheds ..)).trans (pushLater_sheds ..)

theorem updSession_sheds (k : Cover) (f : Session → Session) (hf : ∀ x, (f x).key = x.key) (s : State) :
    Sheds s (updSession k f s) := (updSession_same k f hf s).sheds

theorem softEnd_sheds (k : Cover) (code : EndCode) (s : State) : Sheds s (softEnd k code s) := by
  unfold softEnd; split
  · exact .rfl
  · split
    · exact endNow_sheds ..
    · exact .rfl
    · have h := ((updSession_same k (fun x => { x.stopRun s.now with phase := .stopping, pendingEnd := some code })
        (by intro; rfl) s).trans (clearSeating_same k _)).trans (clearSettle_same k _) |>.trans (writeZeros_same k _)
      exact .ite (h.sheds.trans (endNow_sheds ..)) h.sheds

theorem forceEnd_sheds (k : Cover) (code : EndCode) (reason : Option Reason) (s : State) :
    Sheds s (forceEnd k code reason s) := by
  unfold forceEnd; split
  · exact .rfl
  · exact Sheds.trans (.ite .rfl (forceZero_sheds ..)) (endNow_sheds ..)

theorem finishStopping_sheds (k : Cover) (s : State) : Sheds s (finishStopping k s) := by
  unfold finishStopping; split
  · exact .rfl
  · exact .ite (endNow_sheds ..) .rfl

theorem forceEndAll_sheds (ks : List Cover) (code : EndCode) (reason : Option Reason) (s : State) :
    Sheds s (forceEndAll ks code reason s) := .foldl (fun s k => forceEnd_sheds k code reason s) ks s

theorem markFault_sheds (h : FaultHolder) (k : FaultKind) (s : State) : Sheds s (markFault h k s) :=
  (setFault_same ..).sheds.trans (postEvent_sheds ..)

theorem occur_sheds (h : FaultHolder) (k : FaultKind) (s : State) : Sheds s (occur h k s) :=
  (markFault_sheds h k s).trans (forceEndAll_sheds ..)

theorem occurOnJacks_sheds (js : List Jack) (k : FaultKind) (s : State) : Sheds s (occurOnJacks js k s) :=
  .foldl (fun s j => occur_sheds (.channel (.jack j)) k s) js s

theorem reevaluate_sheds (ch : Change) (s : State) : Sheds s (reevaluate ch s) := by
  refine .foldl (fun t x => ?_) _ s
  split
  · exact forceEnd_sheds ..
  · exact .rfl

end Sys2Proof.Machine
end

