-- ==== Sys2Proof/Laws/Controllers.lean ====
section
/-! SUPPORT. The controllers of slides, awnings and jacks shed at most: none of their operations begins a session, takes
current or changes the chassis record. -/

namespace Sys2Proof.Machine

/-- Record parts that no sound-state condition reads. -/
theorem same_parts (s : State) (control : ModeUnit) (settings : Settings) (links : Vector LinkRec 4) (sampler : Sampler)
    (drive : Vector DriveOutput 23) (pulse : PulseUnit) (pumpFault : FaultRec) (level : LevelUnit)
    (program : ProgramUnit) (wind : WindUnit) (freeCount : Nat) (work : Work) :
    Same s { s with control, settings, links, sampler, drive, pulse, pumpFault, level, program, wind, freeCount, work } :=
  Same.of_eq rfl rfl rfl rfl rfl rfl rfl rfl rfl rfl rfl

/-! ### Drive boundaries -/

theorem showDirection_sheds (c : Channel) (d : Dir) (s : State) : Sheds s (showDirection c d s) := by
  unfold showDirection; split
  · exact .rfl
  · split
    · exact .rfl
    · cases c
      · exact .rfl
      · exact setSlideState_sheds ..
      · exact setAwningState_sheds ..

theorem takeDirection_sheds (o : Output) (d : Dir) (s : State) : Sheds s (takeDirection o d s) := by
  unfold takeDirection; extract_lets s1; split
  · exact (setOutput_same ..).sheds
  · exact (setOutput_same ..).sheds.trans (showDirection_sheds ..)

theorem motorBoundary_sheds (o : Output) (s : State) : Sheds s (motorBoundary o s) := by
  unfold motorBoundary; extract_lets r; split
  · exact .ite (takeDirection_sheds ..) (applyDuty_same ..).sheds
  · split
    · exact .rfl
    · exact .ite (applyDuty_same ..).sheds
        (.ite (applyDuty_same ..).sheds ((clearBuffer_same ..).trans (applyDuty_same ..)).sheds)

theorem boundaryOf_sheds (o : Output) (s : State) : Sheds s (boundaryOf o s) :=
  .ite (motorBoundary_sheds ..) (.ite (pumpBoundary_same ..).sheds
    (.ite (extendBoundary_same ..).sheds (retractBoundary_same ..).sheds))

/-! ### Slides -/

theorem startSlide_sheds (i : Slide) (d : Dir) (s : State) : Sheds s (startSlide i d s) :=
  ((((recentre_same ..).trans (updSlide_same _ _ (by intro; rfl) _)).trans (directSlide_same ..)).trans
    (driveSlide_same ..)).sheds.trans (setSlideState_sheds ..)

theorem skewTrip_sheds (i : Slide) (s : State) : Sheds s (skewTrip i s) := (forceZero_sheds ..).trans (occur_sheds ..)

theorem judgeSlideEdge_sheds (i : Slide) (s : State) : Sheds s (judgeSlideEdge i s) := by
  unfold judgeSlideEdge; split
  · exact .rfl
  · extract_lets k; split
    · exact .rfl
    · exact .ite (skewTrip_sheds ..) .rfl
    · exact .ite (skewTrip_sheds ..) (.ite (softEnd_sheds ..) (driveSlide_same ..).sheds)

theorem rejudgeSlide_sheds (i : Slide) (s : State) : Sheds s (rejudgeSlide i s) := .ite (setSlideState_sheds ..) .rfl

theorem homeSlide_sheds (i : Slide) (s : State) : Sheds s (homeSlide i s) :=
  ((zeroInputs_same ..).trans (updSlide_same _ _ (by intro; rfl) _)).sheds.trans (softEnd_sheds ..)

theorem seatMotor_sheds (i : Slide) (m : Motor) (s : State) : Sheds s (seatMotor i m s) := by
  unfold seatMotor; split
  · exact (seatFirst_same ..).sheds
  · exact .ite .rfl (homeSlide_sheds ..)

theorem stallExtended_sheds (i : Slide) (s : State) : Sheds s (stallExtended i s) :=
  (updSlide_same i (fun e => { e with stalledOut := true }) (by intro; rfl) s).sheds.trans (softEnd_sheds ..)

theorem slideStall_sheds (i : Slide) (m : Motor) (s : State) : Sheds s (slideStall i m s) := by
  unfold slideStall; split
  · exact .rfl
  · extract_lets pos h; split
    · exact .rfl
    · exact .ite (seatMotor_sheds ..) (occur_sheds ..)
    · exact .ite (softEnd_sheds ..) (.ite (stallExtended_sheds ..) (occur_sheds ..))

/-! ### Awnings -/

theorem startAwning_sheds (a : Awning) (d : Dir) (s : State) : Sheds s (startAwning a d s) :=
  ((updAwning_same a (fun e => { e with wasStowed := decide (e.state = .stowed), seatedHome := false }) (by intro; rfl)
    s).trans (driveAwning_same ..)).sheds.trans (setAwningState_sheds ..)

theorem judgeAwningEdge_sheds (a : Awning) (s : State) : Sheds s (judgeAwningEdge a s) := by
  unfold judgeAwningEdge; split
  · exact .rfl
  · exact .ite (softEnd_sheds ..) .rfl

theorem rejudgeAwning_sheds (a : Awning) (s : State) : Sheds s (rejudgeAwning a s) := .ite (setAwningState_sheds ..) .rfl

theorem homeAwning_sheds (a : Awning) (s : State) : Sheds s (homeAwning a s) := by
  have h := ((zeroInputs_same (.awning a) s).trans
    (updAwning_same a (fun e => { e with homed := true, seatedHome := true }) (by intro; rfl) _)).sheds
  exact Sheds.trans (.ite h (h.trans (pushUrgent_sheds ..))) (softEnd_sheds ..)

theorem awningStall_sheds (a : Awning) (s : State) : Sheds s (awningStall a s) := by
  unfold awningStall; split
  · exact .rfl
  · extract_lets h; split
    · exact .rfl
    · exact .ite (homeAwning_sheds ..) (occur_sheds ..)
    · exact .ite (occur_sheds ..) (softEnd_sheds ..)

theorem showAbandoned_sheds (c : Channel) (d : Dir) (s : State) : Sheds s (showAbandoned c d s) :=
  .ite (showDirection_sheds ..) .rfl

theorem endUnhomed_sheds (c : Channel) (s : State) : Sheds s (endUnhomed c s) := by
  unfold endUnhomed; split
  · exact .rfl
  · exact .ite (forceEnd_sheds ..) .rfl

theorem unhome_sheds (c : Channel) (s : State) : Sheds s (unhome c s) := by
  cases c with
  | jack j => exact .rfl
  | slide i =>
    exact ((((updSlide_same i (fun e => { e with homed := false }) (by intro; rfl) s).sheds.trans
      (setSlideState_sheds ..)).trans (postEvent_sheds ..)).trans (storeIfEmpty_sheds ..)).trans (endUnhomed_sheds ..)
  | awning a =>
    exact (((((updAwning_same a (fun e => { e with homed := false }) (by intro; rfl) s).sheds.trans
      (setAwningState_sheds ..)).trans (pushUrgent_sheds ..)).trans (postEvent_sheds ..)).trans
      (storeIfEmpty_sheds ..)).trans (endUnhomed_sheds ..)

/-! ### Hall edges -/

theorem slideMoved_sheds (i : Slide) (s : State) : Sheds s (slideMoved i s) :=
  (updSlide_same i _ (by intro; rfl) s).sheds.trans (rejudgeSlide_sheds ..)

theorem awningMoved_sheds (a : Awning) (s : State) : Sheds s (awningMoved a s) :=
  (updAwning_same a _ (by intro; rfl) s).sheds.trans (rejudgeAwning_sheds ..)

theorem awningEdge_sheds (a : Awning) (old : Nat) (s : State) : Sheds s (awningEdge a old s) := by
  have h : Sheds s (if awningPosition a s = old then s else awningMoved a s) := .ite .rfl (awningMoved_sheds ..)
  exact Sheds.trans (.ite (h.trans (pushUrgent_sheds ..)) h) (judgeAwningEdge_sheds ..)

theorem strayLimit_sheds (p : Hall) (s : State) : Sheds s (strayLimit p s) :=
  .ite ((setHall_same ..).sheds.trans (unhome_sheds ..)) (setHall_same ..).sheds

theorem strayEdge_sheds (p : Hall) (s : State) : Sheds s (strayEdge p s) :=
  .ite (setHall_same ..).sheds (.ite (strayLimit_sheds ..) (setHall_same ..).sheds)

theorem reportStall_sheds (p : Hall) (s : State) : Sheds s (reportStall p s) := by
  unfold reportStall; extract_lets s1
  have h : Sheds s s1 := (setHall_same ..).sheds
  split
  · exact h.trans (slideStall_sheds ..)
  · exact h.trans (awningStall_sheds ..)
  · exact h

theorem expireSeat_sheds (i : Slide) (s : State) : Sheds s (expireSeat i s) :=
  (occur_sheds ..).trans (updSlide_same i (fun e => { e with seating := .none }) (by intro; rfl) _).sheds

/-! ### Jacks: valves, stages, the lift -/

theorem extendJack_sheds (duty : Nat) (j : Jack) (s : State) : Sheds s (extendJack duty j s) :=
  ((writeDuty_same ..).trans (writeDuty_same ..)).sheds.trans (setJackState_sheds ..)

theorem retractJack_sheds (j : Jack) (s : State) : Sheds s (retractJack j s) :=
  ((writeDuty_same ..).trans (writeDuty_same ..)).sheds.trans (setJackState_sheds ..)

theorem stopExtend_sheds (j : Jack) (s : State) : Sheds s (stopExtend j s) :=
  (writeDuty_same ..).sheds.trans (restJack_sheds ..)

theorem stopRetract_sheds (j : Jack) (s : State) : Sheds s (stopRetract j s) :=
  (writeDuty_same ..).sheds.trans (restJack_sheds ..)

theorem setStageLimit_sheds (limit : Nat) (s : State) : Sheds s (setStageLimit limit s) :=
  updSession_sheds _ _ (by intro; rfl) s

theorem beginJackSession_sheds (op : Operation) (origin : Origin) (s : State) : Sheds s (beginJackSession op origin s) := by
  cases op
  · exact .ite (setLevelState_sheds ..) .rfl
  · exact .ite ((level_sheds s _).trans (setLevelState_sheds ..)) ((level_sheds s _).trans (setLevelState_sheds ..))
  · exact (level_sheds s _).trans (setLevelState_sheds ..)
  · exact setLevelState_sheds ..

theorem startSettle_sheds (s : State) : Sheds s (startSettle s) := level_sheds s _

theorem enterSettle_sheds (s : State) : Sheds s (enterSettle s) :=
  ((setLevelState_sheds ..).trans (setStageLimit_sheds ..)).trans (startSettle_sheds _)

theorem touchJacks_sheds (s : State) : Sheds s (touchJacks s) :=
  .foldl (fun _ _ => .ite .rfl (extendJack_sheds ..)) _ s

theorem judgeContacts_sheds (s : State) : Sheds s (judgeContacts s) := by
  unfold judgeContacts; split
  · split
    · split
      · exact .ite (softEnd_sheds ..) (enterSettle_sheds _)
      · exact .rfl
    · exact (level_sheds s _).trans (enterSettle_sheds _)
    · exact .rfl
  · exact .rfl

theorem enterRecontact_sheds (s : State) : Sheds s (enterRecontact s) :=
  ((((level_sheds s _).trans (setLevelState_sheds ..)).trans (setStageLimit_sheds ..)).trans (touchJacks_sheds _)).trans
    (judgeContacts_sheds _)

theorem decideRun_sheds (o : LevelOutcome) (s : State) : Sheds s (decideRun o s) :=
  (level_sheds s _).trans (softEnd_sheds ..)

theorem driveLift_sheds (s : State) : Sheds s (driveLift s) := .foldl (fun _ _ => .ite (extendJack_sheds ..) .rfl) _ s

theorem enterLift_sheds (plan : Vector JackPlan 6) (ep er : Int) (s : State) : Sheds s (enterLift plan ep er s) :=
  (((level_sheds s _).trans (setLevelState_sheds ..)).trans (setStageLimit_sheds ..)).trans (driveLift_sheds _)

theorem computeLift_sheds (ep er : Int) (s : State) : Sheds s (computeLift ep er s) :=
  .ite ((level_sheds s _).trans (enterLift_sheds ..)) ((level_sheds s _).trans (decideRun_sheds ..))

theorem measure_sheds (s : State) : Sheds s (measure s) := by
  unfold measure; extract_lets ep er x s1
  have h : Sheds s s1 := level_sheds s _
  exact .ite (h.trans (decideRun_sheds ..)) (.ite (h.trans (enterRecontact_sheds _)) (.ite (h.trans (decideRun_sheds ..))
    (.ite (h.trans (decideRun_sheds ..)) (h.trans (computeLift_sheds ..)))))

theorem startJacksUp_sheds (s : State) : Sheds s (startJacksUp s) := by
  unfold startJacksUp; extract_lets s1
  have h : Sheds s s1 := .foldl (fun _ _ => .ite .rfl (retractJack_sheds ..)) _ s
  exact .ite (h.trans (softEnd_sheds ..)) h

theorem startLevel_sheds (s : State) : Sheds s (startLevel s) := by
  unfold startLevel; split
  · exact (touchJacks_sheds s).trans (judgeContacts_sheds _)
  · exact (touchJacks_sheds s).trans (judgeContacts_sheds _)
  · exact startSettle_sheds s
  · exact driveLift_sheds s
  · exact startJacksUp_sheds s
  · exact .rfl
  · exact .rfl

theorem driveSingle_sheds (j : Jack) (d : Dir) (k : Kind) (s : State) : Sheds s (driveSingle j d k s) := by
  cases d
  · exact extendJack_sheds ..
  · exact retractJack_sheds ..

theorem judgeSingle_sheds (j : Jack) (s : State) : Sheds s (judgeSingle j s) := .ite (softEnd_sheds ..) .rfl

theorem startSingle_sheds (j : Jack) (d : Dir) (k : Kind) (s : State) : Sheds s (startSingle j d k s) :=
  .ite (softEnd_sheds ..) (driveSingle_sheds ..)

/-! ### Jacks: one frame -/

theorem restStopped_sheds (news : FrameNews) (s : State) : Sheds s (restStopped news s) := by
  refine .foldl (fun s j => ?_) _ s
  split
  · split
    · exact .rfl
    · exact .rfl
    · exact restJack_sheds ..
  · exact .rfl

theorem drawIf_sheds (needed dflt : Bool) (s : State) : Sheds s (drawIf needed dflt s).2 := (drawIf_same ..).sheds

theorem judgeTouch_sheds (news : FrameNews) (j : Jack) (s : State) : Sheds s (judgeTouch news j s) :=
  .ite (.ite (Sheds.trans (drawIf_sheds _ _ s) (.ite (occur_sheds ..) (stopExtend_sheds ..)))
    (.ite (occur_sheds ..) .rfl)) .rfl

theorem frameTouch_sheds (news : FrameNews) (s : State) : Sheds s (frameTouch news s) := by
  have h : Sheds s (allJacks.foldl (fun s j => judgeTouch news j s) s) := .foldl (fun s j => judgeTouch_sheds news j s) _ s
  exact .ite ((h.trans (touchJacks_sheds _)).trans (judgeContacts_sheds _)) h

theorem setHangCount_sheds (j : Jack) (n : Nat) (s : State) : Sheds s (setHangCount j n s) :=
  .ite (level_sheds s _) (level_sheds s _)

theorem frameHanging_sheds (news : FrameNews) (s : State) : Sheds s (frameHanging news s) := by
  refine .foldl (fun s j => ?_) _ s
  split
  · exact .rfl
  · exact .ite (setHangCount_sheds ..) (setHangCount_sheds ..)

theorem stopAtTarget_sheds (news : FrameNews) (j : Jack) (s : State) : Sheds s (stopAtTarget news j s) :=
  .ite ((level_sheds s _).trans (stopExtend_sheds ..)) .rfl

theorem syncJack_sheds (reference : Int) (j : Jack) (s : State) : Sheds s (syncJack reference j s) :=
  .ite ((level_sheds s _).trans (writeDuty_same ..).sheds)
    (.ite ((level_sheds s _).trans (writeDuty_same ..).sheds) .rfl)

theorem syncLift_sheds (s : State) : Sheds s (syncLift s) := by
  unfold syncLift; split
  · exact .rfl
  · exact .foldl (fun s j => syncJack_sheds _ j s) _ s

theorem frameStops_sheds (news : FrameNews) (s : State) : Sheds s (frameStops news s) := by
  have h : Sheds s (allJacks.foldl (fun s j => stopAtTarget news j s) s) :=
    .foldl (fun s j => stopAtTarget_sheds news j s) _ s
  exact .ite (.ite (h.trans (syncLift_sheds _)) (h.trans (enterRecontact_sheds _))) .rfl

theorem tripGuard_sheds (s : State) : Sheds s (tripGuard s) := .ite (occurOnJacks_sheds ..) .rfl

theorem frameLift_sheds (news : FrameNews) (s : State) : Sheds s (frameLift news s) := by
  have h : Sheds s (drawIf (guardTripped news (frameHanging news s)) false (frameHanging news s)).2 :=
    (frameHanging_sheds news s).trans (drawIf_sheds ..)
  exact .ite (h.trans (frameStops_sheds ..)) (.ite ((h.trans (tripGuard_sheds _)).trans (frameStops_sheds ..))
    ((h.trans (frameStops_sheds ..)).trans (tripGuard_sheds _)))

theorem frameRetract_sheds (news : FrameNews) (s : State) : Sheds s (frameRetract news s) := by
  unfold frameRetract; extract_lets s1
  have h : Sheds s s1 := .foldl (fun _ _ => .ite (stopRetract_sheds ..) .rfl) _ s
  exact .ite (h.trans (softEnd_sheds ..)) h

theorem frameSingles_sheds (news : FrameNews) (s : State) : Sheds s (frameSingles news s) := by
  refine .foldl (fun s j => ?_) _ s
  split
  · exact .ite (softEnd_sheds ..) .rfl
  · exact .rfl

theorem tripDrift_sheds (s : State) : Sheds s (tripDrift s) := by
  unfold tripDrift; extract_lets x s1
  have h : Sheds s s1 := (level_sheds s _).trans (postEvent_sheds ..)
  exact .ite ((h.trans (level_sheds s1 _)).trans (pushLater_sheds ..)) h

theorem frameDrift_sheds (news : FrameNews) (s : State) : Sheds s (frameDrift news s) :=
  .ite (.ite (.ite (tripDrift_sheds s) (level_sheds s _)) (level_sheds s _)) .rfl

theorem followAttitude_sheds (was : Bool) (s : State) : Sheds s (followAttitude was s) := by
  unfold followAttitude; extract_lets now x s1
  have h : Sheds s s1 := .ite (.ite (level_sheds s _) (.ite (startSettle_sheds s) .rfl)) .rfl
  exact .ite (h.trans (level_sheds s1 _)) h

theorem levelFrame_sheds (was : Bool) (news : FrameNews) (s : State) : Sheds s (levelFrame was news s) := by
  unfold levelFrame; extract_lets s1 s2
  have h1 : Sheds s s1 := (followAttitude_sheds ..).trans (restStopped_sheds ..)
  have h2 : Sheds s1 s2 := by
    unfold s2; split
    · exact frameTouch_sheds ..
    · exact frameTouch_sheds ..
    · exact .ite (frameLift_sheds ..) .rfl
    · exact .ite (frameRetract_sheds ..) .rfl
    · exact .rfl
  exact ((h1.trans h2).trans (frameSingles_sheds ..)).trans (frameDrift_sheds ..)

theorem stageExpired_sheds (s : State) : Sheds s (stageExpired s) := by
  unfold stageExpired; split
  · exact occurOnJacks_sheds ..
  · exact occurOnJacks_sheds ..
  · exact decideRun_sheds ..
  · exact occurOnJacks_sheds ..
  · exact occurOnJacks_sheds ..
  · exact .rfl
  · exact .rfl

end Sys2Proof.Machine
end

