-- ==== Sys2Proof/Laws/Keeps.lean ====
section
/-! SUPPORT. Every operation keeps each of the sound-state conditions, leaves the waiting commands alone and never turns
the clock back. -/

namespace Sys2Proof.Machine

/-- What every operation does to the sound-state conditions. -/
structure Holds (s t : State) : Prop where
  pending : t.pending = s.pending
  now : s.now ≤ t.now
  lines : LinesAgree s → LinesAgree t
  alarm : AlarmFollows s → AlarmFollows t
  writes : WritesOrdered s → WritesOrdered t
  supply : SupplyKept s → SupplyKept t
  sessions : OneSessionEach s → OneSessionEach t
  travel : TravelStill s → TravelStill t

/-- `Holds`, and the drive-away field still agrees with its condition: all but a motion reset (05 R90). -/
structure Keeps (s t : State) : Prop extends Holds s t where
  driveAway : DriveAwayAgrees s → DriveAwayAgrees t

theorem Holds.rfl {s : State} : Holds s s := ⟨.refl _, le_refl _, id, id, id, id, id, id⟩

theorem Holds.trans {s t u : State} (h : Holds s t) (g : Holds t u) : Holds s u :=
  ⟨g.pending.trans h.pending, h.now.trans g.now, g.lines ∘ h.lines, g.alarm ∘ h.alarm, g.writes ∘ h.writes,
   g.supply ∘ h.supply, g.sessions ∘ h.sessions, g.travel ∘ h.travel⟩

theorem Keeps.rfl {s : State} : Keeps s s := ⟨.rfl, id⟩

theorem Keeps.trans {s t u : State} (h : Keeps s t) (g : Keeps t u) : Keeps s u :=
  ⟨h.toHolds.trans g.toHolds, g.driveAway ∘ h.driveAway⟩

theorem Keeps.ite {s t u : State} {c : Prop} [Decidable c] (ht : Keeps s t) (hu : Keeps s u) :
    Keeps s (if c then t else u) := by split <;> assumption

theorem Keeps.foldl {α : Type} {f : State → α → State} (hf : ∀ s a, Keeps s (f s a)) (l : List α) (s : State) :
    Keeps s (l.foldl f s) := by
  induction l generalizing s with
  | nil => exact .rfl
  | cons a l ih => exact (hf s a).trans (ih _)

/-! ### The conditions in terms of session keys -/

/-- Whether a session of this channel set, operation and direction is an awning retraction. -/
def keyRetracts (k : Cover × Operation × Option Dir) : Bool := Motion.awningRetract ⟨k.1, k.2.1, k.2.2, .hold, none⟩

theorem key_retracts (x : Session) : x.motion.awningRetract = keyRetracts x.key := rfl

theorem oneSession_iff (s : State) :
    OneSessionEach s ↔ (s.sessions.map Session.key).Pairwise fun a b => a.1.meets b.1 = false := by
  rw [OneSessionEach, List.pairwise_map]; exact Iff.rfl

theorem travel_iff (s : State) :
    TravelStill s ↔ (chassisCondition s = .travel → ∀ k ∈ s.sessions.map Session.key, keyRetracts k = true) := by
  simp [TravelStill, key_retracts]

theorem condition_same {s t : State} (record : t.interlock.record = s.interlock.record)
    (current : t.interlock.current = s.interlock.current) : chassisCondition t = chassisCondition s := by
  simp [chassisCondition, record, current]

theorem oneSession_sublist {s t : State} (h : (t.sessions.map Session.key).Sublist (s.sessions.map Session.key))
    (g : OneSessionEach s) : OneSessionEach t :=
  (oneSession_iff t).mpr (((oneSession_iff s).mp g).sublist h)

theorem travel_sublist {s t : State} (h : (t.sessions.map Session.key).Sublist (s.sessions.map Session.key))
    (hc : chassisCondition t = .travel → chassisCondition s = .travel) (g : TravelStill s) : TravelStill t :=
  (travel_iff t).mpr fun ht k hk => (travel_iff s).mp g (hc ht) k (h.subset hk)

/-- Shedding keeps everything, but for drive-away until it is judged. -/
theorem Loose.holds {s t : State} (h : Loose s t) : Holds s t where
  pending := h.pending
  now := h.now.ge
  lines := h.lines
  alarm := h.alarm
  writes := h.writes
  supply := fun g => ⟨by unfold budget; rw [h.supplyState]; exact h.held.trans g.1, h.queue.trans g.2⟩
  sessions := oneSession_sublist h.keys
  travel := travel_sublist h.keys (by rw [condition_same h.record h.current]; exact id)

theorem Sheds.keeps {s t : State} (h : Sheds s t) : Keeps s t := ⟨h.toLoose.holds, h.driveAway⟩

theorem Same.keeps {s t : State} (h : Same s t) : Keeps s t := h.sheds.keeps

/-! ### Time -/

theorem reach_keeps (t : Nat) (s : State) : Keeps s (reach t s) :=
  ⟨⟨rfl, Nat.le_max_left .., id, id, id, id, id, id⟩, id⟩

theorem takeBoundary_keeps (o : Output) (s : State) : Keeps s (takeBoundary o s) :=
  ((reach_keeps ..).trans (passBoundary_same ..).keeps).trans (boundaryOf_sheds ..).keeps

/-! ### Supply: requests and grants -/

/-- Only the supply tables differ. -/
theorem Keeps.of_supply {s : State} (x : SupplyUnit) (h : SupplyKept s → SupplyKept { s with supply := x }) :
    Keeps s { s with supply := x } :=
  { Keeps.rfl (s := s) with supply := h, lines := id, alarm := id, driveAway := id, writes := id, sessions := id, travel := id }

theorem addBudget_keeps {h : Holder} {amps : Nat} {s : State} (fits : amps ≤ remainder s) :
    Keeps s (addBudget h amps s) :=
  .of_supply _ fun g => ⟨by
    have g1 := g.1
    simp only [remainder] at fits
    show heldIn _ ≤ budget s
    simp only [heldIn_append, heldSum] at *
    have : heldIn [⟨h, amps, some s.supply.nextOrder⟩] = amps := by simp [heldIn_eq, Allotment.weight]
    omega, g.2⟩

theorem addReserve_keeps (k : Cover) (s : State) : Keeps s (addReserve k s) :=
  .of_supply _ fun g => ⟨by
    show heldIn _ ≤ budget s
    rw [heldIn_append]
    have : heldIn [⟨.session k, Config.retractAmps, none⟩] = 0 := by simp [heldIn_eq, Allotment.weight]
    rw [this]; exact g.1, g.2⟩

theorem joinTail_keeps {h : Holder} {amps : Nat} {s : State} (room : s.supply.queue.length < Config.queueMax) :
    Keeps s (joinTail h amps s) :=
  .of_supply _ fun g => ⟨g.1, by simpa [joinTail] using room⟩

theorem sharePump_keeps (k : Cover) (s : State) : Keeps s (sharePump k s) :=
  .of_supply _ fun g => ⟨by
    show heldIn (s.supply.allotments.map fun a => { a with holder := a.holder.join k }) ≤ budget s
    rw [heldIn_map _ (by intro; exact ⟨rfl, rfl⟩)]; exact g.1, g.2⟩

theorem joinPump_keeps (k : Cover) (s : State) : Keeps s (joinPump k s) :=
  .of_supply _ fun g => ⟨g.1, by simpa using g.2⟩

theorem startPump_same (s : State) : Same s (startPump s) := writeDuty_same ..

theorem askBudget_keeps (h : Holder) (amps : Nat) (s : State) : Keeps s (askBudget h amps s).2 := by
  unfold askBudget; split
  · exact .rfl
  · split
    · next hf => exact addBudget_keeps (by simp [fitsNow] at hf; exact hf.1)
    · split
      · next hr => exact joinTail_keeps hr
      · exact .rfl

theorem askPump_keeps (k : Cover) (s : State) : Keeps s (askPump k s).2 := by
  unfold askPump; split
  · exact sharePump_keeps k s
  · split
    · exact joinPump_keeps k s
    · exact (askBudget_keeps ..).trans (.ite (startPump_same _).keeps .rfl)

theorem askSupply_keeps (k : Cover) (d : Option Dir) (s : State) : Keeps s (askSupply k d s).2 := by
  unfold askSupply; repeat' split
  · exact askPump_keeps k s
  · exact askBudget_keeps ..
  · exact addReserve_keeps k s
  · exact askBudget_keeps ..

/-- Asking for current leaves the table of sessions and the chassis alone. -/
theorem askSupply_table (k : Cover) (d : Option Dir) (s : State) :
    (askSupply k d s).2.sessions = s.sessions ∧ (askSupply k d s).2.interlock = s.interlock := by
  have hb : ∀ h amps, (askBudget h amps s).2.sessions = s.sessions ∧ (askBudget h amps s).2.interlock = s.interlock := by
    intro h amps; unfold askBudget; repeat' split
    all_goals exact ⟨rfl, rfl⟩
  unfold askSupply askPump startPump writeDuty
  dsimp only
  repeat' split
  all_goals first | exact hb .. | exact ⟨rfl, rfl⟩

theorem startController_sheds (x : Session) (s : State) : Sheds s (startController x s) := by
  unfold startController; split
  · exact startLevel_sheds s
  · exact startSingle_sheds ..
  · exact startSlide_sheds ..
  · exact startAwning_sheds ..
  · exact .rfl

theorem runSession_sheds (k : Cover) (s : State) : Sheds s (runSession k s) := by
  unfold runSession; split
  · exact .rfl
  · exact (updSession_sheds k _ (by intro; rfl) s).trans (startController_sheds ..)

theorem grantSession_sheds (k : Cover) (s : State) : Sheds s (grantSession k s) := by
  unfold grantSession; split
  · exact .rfl
  · split
    · exact (pushLater_sheds ..).trans (runSession_sheds ..)
    · exact runSession_sheds ..

theorem grantHead_keeps {e : QueueEntry} {rest : List QueueEntry} {s : State} (hq : s.supply.queue = e :: rest)
    (fits : e.amps ≤ remainder s) : Keeps s (grantHead e rest s) := by
  unfold grantHead; extract_lets x s1 s2
  have h0 : Keeps s { s with supply.queue := rest } :=
    .of_supply _ fun g => ⟨g.1, by have := g.2; rw [hq] at this; exact (Nat.le_succ _).trans this⟩
  have h1 : Keeps s s1 := h0.trans (addBudget_keeps fits)
  have h2 : Keeps s1 s2 := .ite (startPump_same _).keeps .rfl
  exact (h1.trans h2).trans (.foldl (fun s k => (grantSession_sheds k s).keeps) _ s2)

theorem examineHeads_keeps (n : Nat) (s : State) : Keeps s (examineHeads n s) := by
  induction n generalizing s with
  | zero => exact .rfl
  | succ n ih =>
    unfold examineHeads; split
    · exact .rfl
    · next hq =>
      split
      · next hf => exact (grantHead_keeps hq hf).trans (ih _)
      · exact .rfl

theorem examineHead_keeps (s : State) : Keeps s (examineHead s) := examineHeads_keeps ..

/-! ### Supply: falls -/

theorem endEntry_sheds (e : QueueEntry) (s : State) : Sheds s (endEntry e s) :=
  .foldl (fun s k => endNow_sheds k .noSupply none s) _ s

theorem preempt_sheds (k : Cover) (s : State) : Sheds s (preempt k s) :=
  (((((updSession_same k (fun x => { x.stopRun s.now with phase := .waiting }) (by intro; rfl) s).trans
    (forceZero_same ..)).trans (clearSeating_same ..)).trans (clearSettle_same ..))).sheds.trans (restCover_sheds ..)

theorem takeBackSession_sheds (k : Cover) (s : State) : Sheds s (takeBackSession k s) := by
  unfold takeBackSession; split
  · exact .rfl
  · split
    · exact preempt_sheds ..
    · exact (forceZero_sheds ..).trans (endNow_sheds ..)
    · exact .rfl

theorem takeBack_sheds (a : Allotment) (s : State) : Sheds s (takeBack a s) := by
  unfold takeBack; extract_lets x s1 s2
  have h1 : Sheds s s1 := Sheds.of_supply _ _ (heldIn_filter _ _) (le_refl _) (List.length_filter_le ..)
  have h2 : Sheds s1 s2 := .foldl (fun s k => takeBackSession_sheds k s) _ s1
  exact .ite ((h1.trans h2).trans (forceOne_same ..).sheds) (h1.trans h2)


/-- Taking an entry of the table back makes the table shorter. -/
theorem takeBack_shorter {a : Allotment} {s : State} (h : a ∈ s.supply.allotments) :
    (takeBack a s).supply.allotments.length < s.supply.allotments.length := by
  unfold takeBack; extract_lets x s1 s2
  have h1 : s1.supply.allotments.length < s.supply.allotments.length :=
    List.length_filter_lt_length_iff_exists.mpr ⟨a, h, by simp⟩
  have h2 : Sheds s1 s2 := .foldl (fun s k => takeBackSession_sheds k s) _ s1
  have h3 : Sheds s2 (if a.holder.isPump then forceOne pumpOutput s2 else s2) := .ite (forceOne_same ..).sheds .rfl
  exact lt_of_le_of_lt (h3.table.trans h2.table) h1

theorem newer_mem {l : List Allotment} {best : Option Allotment} {x a : Allotment} (hx : x ∈ l)
    (hb : ∀ b, best = some b → b ∈ l) (h : newer best x = some a) : a ∈ l := by
  unfold newer at h; split at h
  · exact hb a h
  · exact Option.some.inj h ▸ hx
  · split at h
    · exact Option.some.inj h ▸ hx
    · exact hb a h

theorem foldl_newer_mem (m l : List Allotment) (hl : ∀ a ∈ l, a ∈ m) (best : Option Allotment)
    (hb : ∀ a, best = some a → a ∈ m) (a : Allotment) (h : l.foldl newer best = some a) : a ∈ m := by
  induction l generalizing best with
  | nil => exact hb a h
  | cons x l ih =>
    exact ih (fun a ha => hl a (List.mem_cons_of_mem _ ha)) _
      (fun b hb' => newer_mem (hl x List.mem_cons_self) hb hb') h

/-- The newest entry stands in the table. -/
theorem newestBudget_mem {l : List Allotment} {a : Allotment} (h : newestBudget l = some a) : a ∈ l :=
  foldl_newer_mem l l (fun _ h => h) none (by simp) a h

theorem newer_isSome (best : Option Allotment) (x : Allotment) (h : best.isSome ∨ x.order.isSome) :
    (newer best x).isSome := by
  unfold newer; split
  · next ho => simpa [ho] using h
  · rfl
  · split <;> rfl

theorem foldl_newer_isSome (l : List Allotment) (best : Option Allotment) (hb : best.isSome) :
    (l.foldl newer best).isSome := by
  induction l generalizing best with
  | nil => exact hb
  | cons x l ih => exact ih _ (newer_isSome best x (.inl hb))

/-- With no BUDGET entry the held sum is 0. -/
theorem newestBudget_none {l : List Allotment} (h : newestBudget l = none) : heldIn l = 0 := by
  induction l with
  | nil => rfl
  | cons x l ih =>
    unfold newestBudget at h ih
    rw [List.foldl_cons] at h
    cases ho : x.order with
    | none =>
      rw [show newer none x = none by simp [newer, ho]] at h
      have := ih h
      rw [heldIn_eq] at this ⊢
      simp [Allotment.weight, ho] at this ⊢; exact this
    | some n =>
      have := foldl_newer_isSome l _ (newer_isSome none x (.inr (by rw [ho]; rfl)))
      rw [h] at this; cases this

theorem takeBackAll_sheds (n : Nat) (back : List QueueEntry) (s : State) : Sheds s (takeBackAll n back s).2 := by
  induction n generalizing back s with
  | zero => exact .rfl
  | succ n ih =>
    unfold takeBackAll; split
    · exact .rfl
    · split
      · exact .rfl
      · exact (takeBack_sheds ..).trans (ih ..)

/-- After stage 1 of a fall the held sum fits the budget (06 R104). -/
theorem takeBackAll_fits (n : Nat) (back : List QueueEntry) (s : State) (hn : s.supply.allotments.length ≤ n) :
    heldSum (takeBackAll n back s).2 ≤ budget (takeBackAll n back s).2 := by
  induction n generalizing back s with
  | zero =>
    have : s.supply.allotments = [] := List.length_eq_zero_iff.mp (Nat.le_zero.mp hn)
    simp [takeBackAll, heldSum, this, heldIn]
  | succ n ih =>
    unfold takeBackAll; split
    · next h => exact h
    · split
      · next hn => simp [heldSum, newestBudget_none hn]
      · next a ha =>
        have := takeBack_shorter (newestBudget_mem ha)
        exact ih _ _ (by omega)

theorem removeTooLarge_sheds (s : State) : Sheds s (removeTooLarge s) :=
  (Sheds.of_supply s.supply.allotments _ (le_refl _) (List.length_filter_le ..) (le_refl _)).trans
    (.foldl (fun s e => endEntry_sheds e s) _ _)

/-- The queue after stage 4 of a fall. -/
theorem trimQueue_sheds (s : State) :
    Sheds s (trimQueue s) ∧ (trimQueue s).supply.queue.length ≤ Config.queueMax := by
  have h1 : Sheds s { s with supply.queue := s.supply.queue.take Config.queueMax } :=
    Sheds.of_supply s.supply.allotments _ (le_refl _) (List.length_take_le' ..) (le_refl _)
  have h2 := Sheds.foldl (fun s e => endEntry_sheds e s) (s.supply.queue.drop Config.queueMax).reverse
    { s with supply.queue := s.supply.queue.take Config.queueMax }
  exact ⟨h1.trans h2, h2.queue.trans (by simp)⟩

/-- A queue of any length may be set beside what is shed; the supply condition is judged afterwards. -/
theorem Sheds.requeue {s t : State} (h : Sheds s t) (q : List QueueEntry) :
    Sheds { s with supply.queue := q } { t with supply.queue := q } :=
  { h with
    queue := le_refl _, lines := h.lines, alarm := h.alarm, writes := h.writes, driveAway := h.driveAway }

/-- A fall: the queue is filled from the table, then all is shed until both fit. -/
theorem handleFall_sheds (s : State) :
    ∃ q, Sheds { s with supply.queue := q } (handleFall s) ∧ SupplyKept (handleFall s) := by
  have h1 := takeBackAll_sheds s.supply.allotments.length [] s
  have hf := takeBackAll_fits s.supply.allotments.length [] s (le_refl _)
  unfold handleFall
  generalize takeBackAll s.supply.allotments.length [] s = p at h1 hf ⊢
  obtain ⟨back, s1⟩ := p
  dsimp only at h1 hf ⊢
  have h2 := removeTooLarge_sheds { s1 with supply.queue := back ++ s1.supply.queue }
  have h3 := trimQueue_sheds (removeTooLarge { s1 with supply.queue := back ++ s1.supply.queue })
  have h23 := h2.trans h3.1
  replace h3 := h3.2
  generalize trimQueue _ = u at h23 h3 ⊢
  refine ⟨_, (h1.requeue _).trans (h23.trans (pushLater_sheds ..)), (h23.held.trans hf).trans (le_of_eq ?_), h3⟩
  show budgetOf s1.supply.state = budgetOf u.supply.state
  rw [h23.supplyState]

/-- The supply state moves one band and the change is handled: everything is kept. -/
theorem moveSupply_keeps (next : SupplyState) (fall : Bool) (s : State)
    (h : fall = true ∨ budget s ≤ budgetOf next) : Keeps s (moveSupply next fall s) := by
  unfold moveSupply; extract_lets x s1
  have hp : Sheds { s with supply.state := next, supply.fallCount := 0, supply.riseCount := 0 } s1 := postEvent_sheds ..
  cases fall with
  | true =>
    obtain ⟨q, hq, hk⟩ := handleFall_sheds s1
    have h2 := (hp.requeue q).trans hq
    rw [if_pos rfl]
    exact
      { pending := h2.pending, now := h2.now.ge, lines := h2.lines, alarm := h2.alarm, driveAway := h2.driveAway, writes := h2.writes,
        supply := fun _ => hk, sessions := oneSession_sublist h2.keys,
        travel := travel_sublist h2.keys (by rw [condition_same h2.record h2.current]; exact id) }
  | false =>
    have hb : budget s ≤ budgetOf next := by simpa using h
    refine Keeps.trans ?_ (pushLater_sheds ..).keeps
    refine Keeps.trans (.of_supply { s.supply with state := next, fallCount := 0, riseCount := 0 }
      fun g => ⟨g.1.trans hb, g.2⟩) hp.keeps

theorem budget_stateAbove (st : SupplyState) : budgetOf st ≤ budgetOf (stateAbove st) := by cases st <;> decide

theorem counts_keeps (s : State) (fall rise : Nat) :
    Keeps s { s with supply.fallCount := fall, supply.riseCount := rise } :=
  .of_supply { s.supply with fallCount := fall, riseCount := rise } fun g => g

theorem judgeSupply_keeps (v : Int) (s : State) : Keeps s (judgeSupply v s) := by
  unfold judgeSupply; split
  exact .ite (moveSupply_keeps _ _ _ (.inl rfl)) (.ite (moveSupply_keeps _ _ _ (.inr (budget_stateAbove _)))
    (counts_keeps ..))

theorem frameSupply_keeps (value : Option Int) (s : State) : Keeps s (frameSupply value s) := by
  cases value with
  | some v => exact judgeSupply_keeps v s
  | none => exact .ite .rfl (counts_keeps ..)

theorem completeDwell_keeps (d : Dwell) (s : State) : Keeps s (completeDwell d s) := by
  cases d
  · exact moveSupply_keeps _ true _ (.inl rfl)
  · exact moveSupply_keeps _ false _ (.inr (budget_stateAbove _))

theorem expireEntry_sheds (q : QueueEntry) (s : State) : Sheds s (expireEntry q s) :=
  (Sheds.of_supply s.supply.allotments _ (le_refl _) (List.length_filter_le ..) (le_refl _)).trans (endEntry_sheds ..)

end Sys2Proof.Machine
end

