-- ==== Sys2Proof/Laws/Requests.lean ====
section
/-! SUPPORT. What creates, reverses, grants and ends by re-evaluation keeps: the Motion Arbiter, the Program Sequencer and
the Mode Controller. -/

namespace Sys2Proof.Machine

/-! ### Creation -/

/-- Check 1 of 05 R77: in TRAVEL only an awning retraction passes. -/
theorem interlock_travel {again : Bool} {m : Motion} {s : State} (h : interlock again m s = none)
    (ht : chassisCondition s = .travel) : m.awningRetract = true := by
  by_contra hn
  simp [interlock, hn, checksOf, ht] at h

theorem retracts_of_motion (m : Motion) (h : m.awningRetract = true) : keyRetracts (m.cover, m.op, m.dir) = true := h

theorem createSession_keeps {a : Ask} {target : Option Nat} {s : State} (free : anyCovered a.cover s = false)
    (still : chassisCondition s = .travel → keyRetracts (a.cover, a.op, a.dir) = true) :
    Keeps s (createSession a target s) := by
  unfold createSession; extract_lets s1 s2
  have h1 : Keeps s s1 :=
    { Keeps.rfl (s := s) with
      lines := id
      alarm := id
      driveAway := id
      writes := id
      supply := id
      sessions := fun g => List.pairwise_append.mpr ⟨g, List.pairwise_singleton .., fun x hx y hy => by
        have : y.cover = a.cover := by rw [List.mem_singleton.mp hy]; rfl
        simp only [anyCovered, List.any_eq_false] at free
        rw [this]; simpa using free x hx⟩
      travel := fun g ht x hx => by
        rcases List.mem_append.mp hx with hx | hx
        · exact g ht x hx
        · rw [List.mem_singleton.mp hx]; exact still ht }
  have h2 : Keeps s1 s2 := .ite (beginJackSession_sheds ..).keeps .rfl
  have h3 : Keeps s2 (tellAwningSession a.cover s2) := by
    unfold tellAwningSession; split
    · exact (pushUrgent_same ..).keeps
    · exact .rfl
  exact .ite ((h1.trans h2).trans h3) (h1.trans h2)

theorem supplyStep_keeps {a : Ask} {target : Option Nat} (clamped grantOnly : Bool) {s : State}
    (free : anyCovered a.cover s = false)
    (still : chassisCondition s = .travel → keyRetracts (a.cover, a.op, a.dir) = true) :
    Keeps s (supplyStep a target clamped grantOnly s).2 := by
  have hk := askSupply_keeps a.cover a.dir s
  have ht := askSupply_table a.cover a.dir s
  unfold supplyStep; split
  · exact .rfl
  · revert hk ht
    cases askSupply a.cover a.dir s with
    | mk g s1 =>
      intro hk ht
      obtain ⟨hs, hi⟩ : s1.sessions = s.sessions ∧ s1.interlock = s.interlock := ht
      have hc : Keeps s1 (createSession a target s1) :=
        createSession_keeps (by simpa [anyCovered, hs] using free)
          (by rw [condition_same (s := s) (by rw [hi]) (by rw [hi])]; exact still)
      cases g
      · exact (hk.trans hc).trans (runSession_sheds ..).keeps
      · exact hk.trans hc
      · exact .rfl

theorem judgeAsk_keeps {a : Ask} (grantOnly : Bool) {s : State} (free : anyCovered a.cover s = false) :
    Keeps s (judgeAsk a grantOnly s).2 := by
  unfold judgeAsk
  cases judgedTarget a s with
  | mk target x =>
    dsimp only; split
    · exact .rfl
    · split
      · exact .rfl
      · next hi => exact supplyStep_keeps _ _ free fun ht => retracts_of_motion _ (interlock_travel hi ht)

theorem askFresh_keeps (a : Ask) (grantOnly : Bool) (s : State) : Keeps s (askFresh a grantOnly s).2 := by
  unfold askFresh; split
  · exact .rfl
  · next h => exact judgeAsk_keeps grantOnly (by simpa using h)

theorem internalRetract_keeps (a : Awning) (origin : Origin) (s : State) : Keeps s (internalRetract a origin s) :=
  askFresh_keeps ..

/-! ### Reversal -/

theorem oneSession_covers {s t : State} (h : t.sessions.map (·.cover) = s.sessions.map (·.cover))
    (g : OneSessionEach s) : OneSessionEach t := by
  have key : ∀ s : State, OneSessionEach s ↔ (s.sessions.map (·.cover)).Pairwise fun a b => a.meets b = false := by
    intro s; rw [OneSessionEach, List.pairwise_map]
  rw [key, h, ← key]; exact g

/-- A reversal of the sessions over a channel set: in TRAVEL only to an awning's retraction. -/
theorem reverse_keeps (k : Cover) (d : Dir) (kind : Kind) (target : Option Nat) (s0 s : State)
    (h : chassisCondition s = .travel → Motion.awningRetract ⟨k, .move, some d, .hold, none⟩ = true) :
    Keeps s (updSession k (Session.reverse d kind target s0) s) := by
  have hcover : ∀ x : Session, (Session.reverse d kind target s0 x).cover = x.cover := by
    intro x; simp only [Session.reverse]; split <;> rfl
  have hop : ∀ x : Session, (Session.reverse d kind target s0 x).op = x.op := by
    intro x; simp only [Session.reverse]; split <;> rfl
  have hdir : ∀ x : Session, (Session.reverse d kind target s0 x).dir = some d := by
    intro x; simp only [Session.reverse]; split <;> rfl
  refine { Keeps.rfl (s := s) with
    lines := id, alarm := id, driveAway := id, writes := id, supply := id, sessions := oneSession_covers ?_, travel := ?_ }
  · simp only [updSession, List.map_map]
    refine List.map_congr_left fun x _ => ?_
    simp only [Function.comp]; split
    · exact hcover x
    · rfl
  · intro g ht y hy
    have hr := h ht
    obtain ⟨x, hx, rfl⟩ := List.mem_map.mp hy
    have hgx := g ht x hx
    split
    · next hk =>
      simp only [Session.motion, Motion.awningRetract, Motion.outward, hcover, hop, hdir, hk] at hr hgx ⊢
      cases hxo : x.op <;> simp_all
    · exact hgx

theorem driveReversal_sheds (c : Channel) (d : Dir) (k : Kind) (x : Session) (s : State) :
    Sheds s (driveReversal c d k x s) := by
  unfold driveReversal; split
  · cases c
    · exact (driveSingle_sheds ..).trans (judgeSingle_sheds ..)
    · exact (((clearSeating_same ..).trans (directSlide_same ..)).trans (driveSlide_same ..)).sheds.trans
        (showAbandoned_sheds ..)
    · exact (driveAwning_same ..).sheds.trans (showAbandoned_sheds ..)
  · exact .rfl

theorem tellAwningSession_same (k : Cover) (s : State) : Same s (tellAwningSession k s) := by
  unfold tellAwningSession; split
  · exact pushUrgent_same ..
  · exact .rfl

theorem takeReversal_keeps {c : Channel} {d : Dir} (k : Kind) (target : Option Nat) (clamped : Bool) {x : Session}
    {s : State}
    (h : chassisCondition s = .travel → Motion.awningRetract ⟨x.cover, .move, some d, .hold, none⟩ = true) :
    Keeps s (takeReversal c d k target clamped x s).2 := by
  have plain : Keeps s (s |> updSession x.cover (Session.reverse d k target s) |> driveReversal c d k x) :=
    (reverse_keeps _ _ _ _ _ _ h).trans (driveReversal_sheds ..).keeps
  have hr := releaseCurrent_sheds x.cover s
  cases c with
  | jack j => exact plain
  | slide i => exact plain
  | awning a =>
    cases d with
    | outward =>
      simp only [takeReversal]; split
      · next hf =>
        have fits : s.settings.awningAmps ≤ remainder (releaseCurrent x.cover s) := by
          have hh := hr.held
          simp only [fitsNow, Bool.and_eq_true, remainder, budget] at hf ⊢
          have := of_decide_eq_true hf.1
          rw [hr.supplyState]; omega
        have h1 := hr.keeps.trans (addBudget_keeps (h := .session x.cover) fits)
        refine Keeps.trans (h1.trans (reverse_keeps _ .outward _ _ _ _ ?_))
          ((driveReversal_sheds ..).trans (tellAwningSession_same ..).sheds).keeps
        rw [show chassisCondition (addBudget _ _ (releaseCurrent x.cover s)) = chassisCondition s from
          condition_same hr.record hr.current]
        exact h
      · exact .rfl
    | inward =>
      have h1 := hr.keeps.trans (addReserve_keeps x.cover _)
      have h2 : Keeps s (updSession x.cover (Session.reverse .inward k target s)
          (addReserve x.cover (releaseCurrent x.cover s))) := by
        refine h1.trans (reverse_keeps _ .inward _ _ _ _ ?_)
        rw [show chassisCondition (addReserve _ (releaseCurrent x.cover s)) = chassisCondition s from
          condition_same hr.record hr.current]
        exact h
      exact Keeps.trans (Keeps.trans h2 (.ite (runSession_sheds ..).keeps (driveReversal_sheds ..).keeps))
        ((tellAwningSession_same ..).trans (pushLater_same ..)).keeps

theorem reverseRequest_keeps (c : Channel) (d : Dir) (k : Kind) (x : Session) (t : Option Word) (s : State) :
    Keeps s (reverse c d k x t s).2 := by
  unfold reverse; split
  · exact .rfl
  · extract_lets kept target; split
    · exact .rfl
    · next hi =>
      split
      · exact .rfl
      · exact takeReversal_keeps k target _ fun ht => interlock_travel (m := ⟨x.cover, .move, some d, k, target⟩) hi ht

theorem tellRetarget_sheds (x : Session) (s : State) : Sheds s (tellRetarget x s) := by
  unfold tellRetarget; split
  · exact judgeSingle_sheds ..
  · exact (driveSlide_same ..).sheds
  · exact .ite (pushUrgent_same ..).sheds .rfl
  · exact .rfl

theorem retarget_sheds (c : Channel) (d : Dir) (x : Session) (t : Option Word) (s : State) :
    Sheds s (retarget c d x t s).2 := by
  unfold retarget; extract_lets kept target; split
  · exact .rfl
  · exact (updSession_sheds _ _ (by intro; rfl) s).trans (tellRetarget_sheds ..)

theorem not_covered {c : Channel} {s : State} (h : sessionOn c s = none) : anyCovered (.one c) s = false := by
  simp only [sessionOn, List.find?_eq_none] at h
  simp only [anyCovered, List.any_eq_false]
  intro x hx
  have := h x hx
  cases hc : x.cover with
  | one c' => simpa [hc, Cover.covers, Cover.meets] using this
  | allJacks => simpa [hc, Cover.covers, Cover.meets] using this

/-- MOVE. -/
theorem judgeMove_keeps (l : Link) (c : Channel) (d : Dir) (k : KindAsked) (t : Option Word) (s : State) :
    Keeps s (judgeMove l c d k t s).2 := by
  unfold judgeMove; repeat' split
  · exact .rfl
  · exact .rfl
  · next x _ =>
    unfold moveCovered; repeat' split
    · exact .rfl
    · exact (retarget_sheds ..).keeps
    · exact reverseRequest_keeps ..
  · next hs => exact judgeAsk_keeps false (not_covered hs)

theorem judgeJacks_keeps (l : Link) (op : Operation) (d : Option Dir) (s : State) :
    Keeps s (judgeJacks l op d s).2 := by
  unfold judgeJacks; repeat' split
  · exact .rfl
  · exact .rfl
  · exact askFresh_keeps ..

theorem keepSessions_same (l : Link) (s : State) : Same s (keepSessions l s) := by
  refine ⟨rfl, rfl, rfl, rfl, rfl, rfl, rfl, ?_, fun c => by cases c <;> rfl⟩
  simp only [keepSessions, List.map_map]
  refine List.map_congr_left fun x _ => ?_
  simp only [Function.comp]; split <;> rfl

theorem stopChannel_sheds (c : Channel) (s : State) : Sheds s (stopChannel c s) := by
  unfold stopChannel; split
  · exact forceEnd_sheds ..
  · exact .rfl

theorem takeOver_keeps (a : Awning) (s : State) : Keeps s (takeOver a s) :=
  (stopChannel_sheds ..).keeps.trans (internalRetract_keeps ..)

theorem expireRun_sheds (x : Session) (s : State) : Sheds s (expireRun x s) := by
  unfold expireRun; split
  · exact stageExpired_sheds s
  · exact softEnd_sheds ..
  · exact .ite (softEnd_sheds ..) (occur_sheds ..)

/-! ### Programs -/

theorem setRun_same (f : RunRecord → RunRecord) (s : State) : Same s (setRun f s) := by apply Same.of_eq <;> rfl

theorem setStatus_same (pos : Nat) (st : StepStatus) (s : State) : Same s (setStatus pos st s) := setRun_same ..

theorem suspend_sheds (why : SuspendReason) (s : State) : Sheds s (suspend why s) := by
  unfold suspend; split
  · exact .rfl
  · exact .ite .rfl ((setRun_same ..).sheds.trans (postEvent_sheds ..))

theorem failStep_sheds (pos : Nat) (why : SuspendReason) (s : State) : Sheds s (failStep pos why s) :=
  (setStatus_same ..).sheds.trans (suspend_sheds ..)

theorem doneStep_sheds (pos : Nat) (k : StepIndex) (s : State) : Sheds s (doneStep pos k s) := by
  unfold doneStep; split
  · exact .rfl
  · exact .ite (setStatus_same ..).sheds (((setStatus_same ..).trans (setRun_same ..)).trans (pushLater_same ..)).sheds

theorem startPartner_keeps (pos : Nat) (ask : Ask) (s : State) : Keeps s (startPartner pos ask s) := by
  have h := askFresh_keeps ask true s
  unfold startPartner; revert h
  cases askFresh ask true s with
  | mk rep s1 =>
    intro h; dsimp only; split
    · exact h.trans ((setStatus_same ..).trans (setRun_same ..)).keeps
    · exact h
    · exact h.trans (failStep_sheds ..).keeps

theorem judgePair_keeps (pos : Nat) (s : State) : Keeps s (judgePair pos s) := by
  unfold judgePair; dsimp only; repeat' split
  · exact .rfl
  · exact .rfl
  · exact .rfl
  · exact (doneStep_sheds ..).keeps
  · exact startPartner_keeps ..
  · exact .rfl

theorem segmentReport_sheds (i : Slide) (s : State) : Sheds s (segmentReport i s) := by
  unfold segmentReport; repeat' split
  · exact .rfl
  · exact .rfl
  · exact .rfl
  · exact ((setStatus_same ..).trans (setRun_same ..)).sheds.trans (forceEnd_sheds ..)
  · exact .rfl

theorem stepStarted_keeps (pos : Nat) (queued resumed : Bool) (s : State) : Keeps s (stepStarted pos queued resumed s) := by
  unfold stepStarted; dsimp only; repeat' split
  · exact .rfl
  · exact ((setStatus_same ..).trans (setRun_same ..)).keeps
  · exact (setStatus_same ..).keeps.trans (judgePair_keeps ..)
  · exact (setStatus_same ..).keeps

theorem startStep_keeps (pos : Nat) (resumed : Bool) (s : State) : Keeps s (startStep pos resumed s) := by
  unfold startStep; split
  · exact .rfl
  · split
    · exact .rfl
    · extract_lets r; split
      · exact (doneStep_sheds ..).keeps
      · split
        · exact (suspend_sheds ..).keeps
        · next ask _ =>
          have h := askFresh_keeps ask false s
          revert h
          cases askFresh ask false s with
          | mk rep s1 =>
            intro h; dsimp only; split
            · exact h.trans (stepStarted_keeps ..)
            · exact h.trans (stepStarted_keeps ..)
            · exact h.trans (stepStarted_keeps ..)
            · exact h.trans (failStep_sheds ..).keeps

theorem program_sheds (s : State) (x : ProgramUnit) : Sheds s { s with program := x } :=
  (Same.of_eq (s := s) (t := { s with program := x }) rfl rfl rfl rfl rfl rfl rfl rfl rfl rfl rfl).sheds

theorem completeRun_sheds (s : State) : Sheds s (completeRun s) :=
  ((program_sheds s _).trans (postEvent_sheds ..)).trans (pushLater_sheds ..)

theorem advance_keeps (s : State) : Keeps s (advance s) := by
  unfold advance; split
  · exact .rfl
  · split
    · exact .rfl
    · split
      · exact (completeRun_sheds s).keeps
      · exact .ite (suspend_sheds ..).keeps (.ite (startStep_keeps ..) (.ite (suspend_sheds ..).keeps (startStep_keeps ..)))

theorem takeEnd_sheds (pos : Nat) (k : StepIndex) (code : EndCode) (outcome : LevelOutcome) (s : State) :
    Sheds s (takeEnd pos k code outcome s) := by
  unfold takeEnd; repeat' split
  · exact failStep_sheds ..
  · exact doneStep_sheds ..
  · exact failStep_sheds ..
  · exact (setStatus_same ..).sheds.trans (suspend_sheds ..)
  · exact .rfl

theorem stepEnded_sheds (k : StepIndex) (code : EndCode) (outcome : LevelOutcome) (s : State) :
    Sheds s (stepEnded k code outcome s) := by
  unfold stepEnded; split
  · exact .rfl
  split
  · exact .rfl
  · exact .ite ((setRun_same ..).sheds.trans (takeEnd_sheds ..)) (setRun_same ..).sheds

theorem stepGranted_keeps (k : StepIndex) (s : State) : Keeps s (stepGranted k s) := by
  unfold stepGranted; split
  · exact .rfl
  split
  · exact .rfl
  · exact .ite ((setRun_same ..).keeps.trans (judgePair_keeps ..)) (setRun_same ..).keeps

theorem judgeRelevel_keeps (s : State) : Keeps s (judgeRelevel s) :=
  .ite ((level_sheds s _).keeps.trans (askFresh_keeps ..)) .rfl

theorem judgeRunProgram_keeps (l : Link) (number : Byte) (s : State) : Keeps s (judgeRunProgram l number s).2 := by
  unfold judgeRunProgram; repeat' split
  · exact .rfl
  · exact .rfl
  · exact .rfl
  · exact .rfl
  · dsimp only; exact (program_sheds s _).keeps.trans (startStep_keeps ..)
  · exact .rfl

theorem judgeResume_keeps (l : Link) (s : State) : Keeps s (judgeResume l s).2 := by
  unfold judgeResume; split
  · extract_lets s1 s2
    have h1 : Keeps s s1 := (setRun_same ..).keeps
    have h2 : Keeps s1 s2 := by
      unfold s2; repeat' split
      · exact (pushLater_same ..).keeps
      · exact .rfl
      · exact (doneStep_sheds ..).keeps
      · exact startStep_keeps ..
    exact h1.trans h2
  · exact .rfl

theorem judgeSkipStep_sheds (l : Link) (s : State) : Sheds s (judgeSkipStep l s).2 := by
  unfold judgeSkipStep; split
  · extract_lets s1 s2
    have h1 : Sheds s s1 := (setRun_same ..).sheds
    have h2 : Sheds s1 s2 := by
      unfold s2; split
      · exact .rfl
      · exact (setStatus_same ..).sheds
    exact (h1.trans h2).trans (pushLater_sheds ..)
  · exact .rfl

theorem judgeAbort_sheds (l : Link) (s : State) : Sheds s (judgeAbort l s).2 := by
  unfold judgeAbort; repeat' split
  · exact .rfl
  · exact .rfl
  · exact (((program_sheds s _).trans (forceEndAll_sheds ..)).trans (postEvent_sheds ..)).trans (pushLater_sheds ..)

theorem keepRun_same (l : Link) (s : State) : Same s (keepRun l s) := .ite (setRun_same ..) .rfl

/-! ### One piece of work, and the end of an event -/

theorem runTask_keeps (t : Task) (s : State) : Keeps s (runTask t s) := by
  cases t
  · exact (reevaluate_sheds ..).keeps
  · exact (finishStopping_sheds ..).keeps
  · exact examineHead_keeps s
  · exact (stepEnded_sheds ..).keeps
  · exact stepGranted_keeps ..
  · exact advance_keeps s
  · exact judgeRelevel_keeps s

theorem work_keeps (s : State) (w : Work) : Keeps s { s with work := w } :=
  (Same.of_eq (s := s) (t := { s with work := w }) rfl rfl rfl rfl rfl rfl rfl rfl rfl rfl rfl).keeps

theorem settle_keeps (n : Nat) (s : State) : Keeps s (settle n s) := by
  induction n generalizing s with
  | zero => exact .rfl
  | succ n ih =>
    unfold settle; split
    · exact ((work_keeps s _).trans (runTask_keeps ..)).trans (ih _)
    · split
      · exact ((work_keeps s _).trans (runTask_keeps ..)).trans (ih _)
      · exact .rfl

end Sys2Proof.Machine
end

