-- ==== Sys2Proof/Laws/Events.lean ====
section
/-! SUPPORT. What each event and each request does to the sound-state conditions: it keeps them. -/

namespace Sys2Proof.Machine

theorem control_same (s : State) (x : ModeUnit) : Same s { s with control := x } :=
  Same.of_eq (s := s) (t := { s with control := x }) rfl rfl rfl rfl rfl rfl rfl rfl rfl rfl rfl

/-! ### Mode Controller -/

theorem judgeIdle_same (s : State) : Same s (judgeIdle s) :=
  .ite (.ite .rfl (control_same s _)) (control_same s _)

theorem restartService_same (l : Link) (s : State) : Same s (restartService l s) := .ite (control_same s _) .rfl

theorem restartIdle_same (s : State) : Same s (restartIdle s) := control_same s _

theorem stopSampler_same (s : State) : Same s (stopSampler s) := same_parts ..

theorem startSampler_same (s : State) : Same s (startSampler s) := same_parts ..

theorem switchOffHalls_same (s : State) : Same s (switchOffHalls s) := same_parts ..

theorem switchOnHalls_same (s : State) : Same s (switchOnHalls s) := by
  unfold switchOnHalls; split
  · exact .rfl
  · exact same_parts ..

theorem judgeWindWatch_same (s : State) : Same s (judgeWindWatch s) := .ite .rfl (same_parts ..)

theorem enterSleep_sheds (s : State) : Sheds s (enterSleep s) := by
  unfold enterSleep; extract_lets s1 x y z
  have h : Sheds s s1 :=
    ((((((changeMode_sheds ..).trans (askStore_sheds ..)).trans (stopSampler_same _).sheds).trans
      (forceZero_sheds ..)).trans (neutralDrive_same ..).sheds).trans (switchOffHalls_same _).sheds).trans
      (judgeWindWatch_same _).sheds
  clear_value s1
  refine h.trans ?_
  exact
    { Loose.rfl (s := s1) with
      lines := id, alarm := id, writes := id, held := le_refl _, queue := le_refl _, table := le_refl _, driveAway := id }

theorem wakeUp_sheds (s : State) : Sheds s (wakeUp s) := by
  unfold wakeUp; extract_lets s1 x y z w
  have h : Sheds s s1 := ((changeMode_sheds ..).trans (startSampler_same _).sheds).trans (switchOnHalls_same _).sheds
  clear_value s1
  exact h.trans (same_parts s1 ..).sheds

theorem wakeReturn_sheds (s : State) : Sheds s (wakeReturn s) := by
  unfold wakeReturn; split
  · exact .ite (enterSleep_sheds s) .rfl
  · exact .rfl

theorem expireWake_sheds (s : State) : Sheds s (expireWake s) := .ite (enterSleep_sheds s) (control_same s _).sheds

theorem storeSettings_sheds (s : State) : Sheds s (storeSettings s) :=
  .ite ((control_same s _).sheds.trans (askStore_sheds ..)) .rfl

theorem exitService_sheds (s : State) : Sheds s (exitService s) := by
  unfold exitService; split
  · extract_lets s1
    have h : Sheds s s1 := (forceEndAll_sheds ..).trans (storeSettings_sheds _)
    clear_value s1
    exact (h.trans (control_same s1 _).sheds).trans (changeMode_sheds ..)
  · exact .rfl

theorem enterService_sheds (l : Link) (s : State) : Sheds s (enterService l s) :=
  (control_same s _).sheds.trans (changeMode_sheds ..)

theorem travelEndsHolding_sheds (s : State) : Sheds s (travelEndsHolding s) := .ite (setLevelState_sheds ..) .rfl

/-! ### The chassis record -/

theorem endNow_removes (k : Cover) (code : EndCode) (reason : Option Reason) (s : State) :
    ∀ y ∈ (endNow k code reason s).sessions.map Session.key, y.1 ≠ k := by
  unfold endNow; split
  · next h =>
    intro y hy he
    obtain ⟨x, hx, rfl⟩ := List.mem_map.mp hy
    simp only [sessionAt, List.find?_eq_none] at h
    exact h x hx (decide_eq_true he)
  · next x _ =>
    extract_lets s1 s2
    have h0 : ∀ y ∈ (removeSession k s).sessions.map Session.key, y.1 ≠ k := by
      intro y hy he
      obtain ⟨x, hx, rfl⟩ := List.mem_map.mp hy
      have := (List.mem_filter.mp hx).2
      simp only [Session.key] at he
      simp [he] at this
    have h1 : Sheds (removeSession k s) s1 := (releaseCurrent_sheds k _).trans (restCover_sheds k _)
    have h2 : Sheds s1 s2 := .foldl (fun s c => (setLastEnd_same ⟨code, reason, x.owner, x.op⟩ c s).sheds) k.channels _
    clear_value s1 s2
    have h3 := (((((h1.trans h2).trans (endLevelRun_sheds x.op code _)).trans (postEvent_sheds .sessionEnd _)).trans
      (storeIfEmpty_sheds _)).trans (pushLater_sheds .examineHead _)).trans (endTask_sheds x code _) |>.trans
      (pushLater_sheds .relevel _)
    exact fun y hy => h0 y (h3.keys.subset hy)

theorem forceEnd_removes (k : Cover) (code : EndCode) (reason : Option Reason) (s : State) :
    ∀ y ∈ (forceEnd k code reason s).sessions.map Session.key, y.1 ≠ k := by
  unfold forceEnd; split
  · next h =>
    intro y hy he
    obtain ⟨x, hx, rfl⟩ := List.mem_map.mp hy
    simp only [sessionAt, List.find?_eq_none] at h
    exact h x hx (decide_eq_true he)
  · extract_lets s1 c
    exact endNow_removes k c _ s1

theorem reevaluate_removes (ch : Change) (s : State) (l : List Session) (t : State) (x : Session) (hx : x ∈ l)
    (hf : (failsAgain ch x s).isSome) :
    ∀ y ∈ (l.foldl (fun t x =>
      match failsAgain ch x s with
      | some r => forceEnd x.cover .interlock (some r) t
      | none => t) t).sessions.map Session.key, y.1 ≠ x.cover := by
  have hs : ∀ (l : List Session) (t : State), Sheds t (l.foldl (fun t x =>
      match failsAgain ch x s with
      | some r => forceEnd x.cover .interlock (some r) t
      | none => t) t) := by
    intro l t; refine .foldl (fun t x => ?_) l t
    split
    · exact forceEnd_sheds ..
    · exact .rfl
  induction l generalizing t with
  | nil => cases hx
  | cons a l ih =>
    rcases List.mem_cons.mp hx with rfl | hx
    · obtain ⟨r, hr⟩ := Option.isSome_iff_exists.mp hf
      rw [List.foldl_cons]; simp only [hr]
      exact fun y hy => forceEnd_removes _ _ _ _ y ((hs l _).keys.subset hy)
    · exact ih _ hx

/-- 05 R85: after a change to TRAVEL is re-evaluated, only awning retractions are left. -/
theorem reevaluate_travel (s : State) (ht : chassisCondition s = .travel) (k : Cover × Operation × Option Dir)
    (hk : k ∈ (reevaluate .chassis s).sessions.map Session.key) : keyRetracts k = true := by
  by_contra hn
  obtain ⟨x, hx, rfl⟩ := List.mem_map.mp ((reevaluate_sheds .chassis s).keys.subset hk)
  have hm : x.motion.awningRetract = false := by rw [key_retracts]; simpa using hn
  have hf : (failsAgain .chassis x s).isSome := by
    simp [failsAgain, reads, interlock, hm, checksOf, ht]
  exact reevaluate_removes .chassis s s.sessions s x hx hf x.key hk rfl

/-- A frame that changes neither the brake nor the speed leaves the chassis part of drive-away. -/
theorem changesMoving_still (r : ChassisRecord) (s t : State) (h : t.interlock.record = some r)
    (still : changesMoving r s = false) : chassisMoving t = chassisMoving s := by
  unfold changesMoving at still
  unfold chassisMoving
  rw [h]
  cases hr : s.interlock.record with
  | none => simp [hr] at still
  | some old => rw [hr] at still; simp at still; simp [still.1, still.2]

/-- The record and its currency may be set to anything before the change is handed on. -/
theorem handChassis_keeps (moving : Bool) (s t : State) (h : t = { s with interlock := t.interlock })
    (flag : t.interlock.driveAway = s.interlock.driveAway) (alarm : t.interlock.alarm = s.interlock.alarm)
    (still : moving = false → chassisCondition t = chassisCondition s → chassisMoving t = chassisMoving s) :
    Keeps s (handChassis (chassisCondition s) moving t) := by
  have base : t.pending = s.pending ∧ t.now = s.now ∧ t.events = s.events ∧ t.memory = s.memory ∧ t.supply = s.supply
      ∧ t.sessions = s.sessions := by rw [h]; exact ⟨rfl, rfl, rfl, rfl, rfl, rfl⟩
  obtain ⟨hp, hn, he, hm, hs, hx⟩ := base
  have follows : AlarmFollows s → AlarmFollows t := fun g => by unfold AlarmFollows; rw [alarm, flag]; exact g
  have agrees : moving = false → chassisCondition t = chassisCondition s → DriveAwayAgrees s → DriveAwayAgrees t :=
    fun hm hc g => ⟨by rw [flag, g.1, h]; simp only [driveAwayHolds, ← still hm hc]; rw [h]; rfl, follows g.2⟩
  have finish : ∀ v u, Loose t v → (AlarmFollows s → DriveAwayAgrees s → DriveAwayAgrees v) → Sheds v u →
      (TravelStill s → TravelStill u) → Keeps s u := by
    intro v u hv hd hu htr
    have hl : Loose t u := hv.trans hu.toLoose
    exact
      { pending := hl.pending.trans hp
        now := by rw [hl.now, hn]
        lines := fun g => hl.lines (by unfold LinesAgree; rw [he]; exact g)
        alarm := fun g => hl.alarm (follows g)
        driveAway := fun g => hu.driveAway (hd g.2 g)
        writes := fun g => hl.writes (by unfold WritesOrdered; rw [hm]; exact g)
        supply := fun g => by
          have gt : SupplyKept t := by unfold SupplyKept heldSum budget; rw [hs]; exact g
          exact ⟨by unfold budget; rw [hl.supplyState]; exact hl.held.trans gt.1, hl.queue.trans gt.2⟩
        sessions := fun g => oneSession_sublist hl.keys (by unfold OneSessionEach; rw [hx]; exact g)
        travel := htr }
  unfold handChassis; split
  · next hc =>
    have hj : Sheds t (if moving = true then judgeDriveAway t else t) := .ite (judgeDriveAway_sheds t) .rfl
    refine finish _ _ hj.toLoose (fun ha g => ?_) .rfl fun g => hj.keeps.travel ?_
    · cases moving with
      | false => exact agrees rfl hc g
      | true => exact judgeDriveAway_agrees t (follows ha)
    · unfold TravelStill; rw [hx, hc]; exact g
  · have hr : Sheds t (reevaluate .chassis t) := reevaluate_sheds ..
    have hv := hr.toLoose.trans (judgeDriveAway_sheds (reevaluate .chassis t)).toLoose
    refine finish _ _ hv (fun ha _ => judgeDriveAway_agrees _ (hr.alarm (follows ha))) ?_ fun _ => ?_
    · exact Sheds.trans (.ite (exitService_sheds _) .rfl) (travelEndsHolding_sheds _)
    · have hl : Sheds (reevaluate .chassis t)
          (travelEndsHolding (leaveParked (chassisCondition s) (judgeDriveAway (reevaluate .chassis t)))) :=
        (judgeDriveAway_sheds _).trans (Sheds.trans (.ite (exitService_sheds _) .rfl) (travelEndsHolding_sheds _))
      refine (travel_iff _).mpr fun ht k hk => reevaluate_travel t ?_ k (hl.keys.subset hk)
      rw [← ht]
      exact (condition_same (hl.record.trans (reevaluate_sheds .chassis t).record)
        (hl.current.trans (reevaluate_sheds .chassis t).current)).symm

theorem ignitionRetract_keeps (s : State) : Keeps s (ignitionRetract s) :=
  .foldl (fun _ _ => .ite (internalRetract_keeps ..) .rfl) _ s

theorem takeChassis_keeps (r : ChassisRecord) (s : State) : Keeps s (takeChassis r s) := by
  unfold takeChassis; extract_lets edge x s1
  have h : Keeps s s1 := handChassis_keeps _ s _ rfl rfl rfl fun h _ => changesMoving_still r s _ rfl h
  clear_value s1
  exact .ite (h.trans (ignitionRetract_keeps s1)) h

theorem expireStaleness_keeps (s : State) : Keeps s (expireStaleness s) := handChassis_keeps false s _ rfl rfl rfl fun _ _ => rfl

/-! ### Resets, load, power -/

theorem resetRun_sheds (s : State) : Sheds s (resetRun s) := .ite (program_sheds s _) .rfl

theorem resetLevel_sheds (s : State) : Sheds s (resetLevel s) := by
  unfold resetLevel; extract_lets s1 x
  have h : Sheds s s1 := setLevelState_sheds ..
  clear_value s1
  exact h.trans (level_sheds s1 _)

theorem resetSlides_same (s : State) : Same s (resetSlides s) := by
  refine ⟨rfl, rfl, rfl, rfl, rfl, rfl, rfl, rfl, fun c => ?_⟩
  cases c with
  | jack j => rfl
  | slide i => simp [isStowed, resetSlides]
  | awning a => rfl

theorem endAllMotion_sheds (keepLast : Bool) (s : State) : Sheds s (endAllMotion keepLast s) := by
  unfold endAllMotion; extract_lets s1 s2 x
  have h1 : Sheds s s1 := ((forceZero_sheds ..).trans (neutralDrive_same ..).sheds).trans (resetRun_sheds _)
  have h2 : Sheds s1 s2 := ((forceEndAll_sheds ..).trans (resetLevel_sheds _)).trans (resetSlides_same _).sheds
  clear_value s1 s2
  exact (h1.trans h2).trans (Sheds.of_supply (s := s2) [] [] (Nat.zero_le _) (Nat.zero_le _) (Nat.zero_le _))

/-- A motion reset leaves the Interlock Unit as it was (05 R90). -/
theorem motionResetNow_interlock (s : State) : (motionResetNow s).interlock = s.interlock := by
  unfold motionResetNow
  generalize endAllMotion true s = t
  dsimp only; unfold askStore beginWrite setInterlock; dsimp only; repeat' split
  all_goals rfl

/-- The Interlock Unit may be put back as it was. -/
theorem Loose.putBack {s t : State} (h : Loose s t) : Loose s (setInterlock s.interlock t) :=
  { h with record := by rfl, current := by rfl, alarm := id, lines := h.lines, writes := h.writes }

theorem motionResetNow_loose (s : State) : Loose s (motionResetNow s) := by
  unfold motionResetNow; extract_lets s1
  have h : Loose s s1 := (endAllMotion_sheds true s).toLoose.putBack
  clear_value s1
  split
  · exact h.trans (askStore_sheds ..).toLoose
  · exact h

theorem beginFullReset_sheds (s : State) : Sheds s (beginFullReset s) := by
  unfold beginFullReset; extract_lets s1 x
  have h : Sheds s s1 := ((endAllMotion_sheds ..).trans (askStore_sheds ..)).trans (stopSampler_same _).sheds
  clear_value s1
  exact h.trans (control_same s1 _).sheds

/-- Power-on values meet every condition, if the memory's bytes did; the waiting commands and the clock stay. -/
theorem rebuild_sound (s : State) (hm : Memory.wf s.memory.bytes = true) : Sound (rebuild s) := by
  refine ⟨fun l => ?_, rfl, ⟨List.nodup_nil, fun _ => rfl, hm⟩, ⟨Nat.zero_le _, Nat.zero_le _⟩,
    List.Pairwise.nil, fun _ x hx => by cases hx⟩
  · show (Vector.replicate 4 (⟨1, 0, false⟩ : EventBox))[l].line = _
    simp [rebuild]

theorem rebuild_keeps (s : State) : Keeps s (rebuild s) :=
  let h := rebuild_sound { s with memory := {} } rfl
  ⟨⟨rfl, le_refl _, fun _ => h.lines, fun _ => h.alarm, fun g => ⟨List.nodup_nil, fun _ => rfl, g.2.2⟩,
    fun _ => h.supply, fun _ => h.sessions, fun _ => h.travel⟩, fun _ => ⟨rfl, rfl⟩⟩

end Sys2Proof.Machine
end

