-- ==== Sys2Proof/Laws/Memory.lean ====
section
/-! SUPPORT. The serial memory: a byte reads back as written and no other changes, every operation keeps the canonical
form, a written block passes its CRC and gives its image back, and a block whose write was cut short fails it. -/

namespace Sys2Proof.Machine

/-! ### Single bytes -/

theorem putByte_same (a : Nat) (b : Byte) (m : List Host.Cell) (h : ∀ c ∈ m, a < c.1) :
    readByte a (putByte a b m) = b := by
  have blank : ∀ m : List Host.Cell, (∀ c ∈ m, a < c.1) → readByte a m = Config.blankByte := by
    intro m h
    induction m with
    | nil => rfl
    | cons c m ih =>
      obtain ⟨k, c⟩ := c
      have hk : a < k := h (k, c) (by simp)
      simp only [readByte, if_neg (Nat.ne_of_gt hk)]
      exact ih fun x hx => h x (by simp [hx])
  unfold putByte; split
  · next hb => rw [hb]; exact blank m h
  · simp [readByte]

theorem putByte_other {a k : Nat} (b : Byte) (m : List Host.Cell) (h : k ≠ a) :
    readByte k (putByte a b m) = readByte k m := by
  unfold putByte; split
  · rfl
  · simp [readByte, Ne.symm h]

/-- A byte reads back as it was written. -/
theorem readByte_writeByte_same (a : Nat) (b : Byte) (m : List Host.Cell) (h : m.Pairwise fun x y => x.1 < y.1) :
    readByte a (writeByte a b m) = b := by
  induction m with
  | nil => exact putByte_same a b [] (by simp)
  | cons c m ih =>
    obtain ⟨k, c⟩ := c
    obtain ⟨hk, hm⟩ := List.pairwise_cons.mp h
    simp only [writeByte]; split
    · next hak =>
      refine putByte_same a b _ fun x hx => ?_
      rcases List.mem_cons.mp hx with rfl | hx
      · exact hak
      · exact hak.trans (hk x hx)
    · split
      · next hka => subst hka; exact putByte_same k b m hk
      · next hka => simp [readByte, hka, ih hm]

/-- A write leaves every other byte alone. -/
theorem readByte_writeByte_other {a k : Nat} (b : Byte) (m : List Host.Cell) (h : k ≠ a) :
    readByte k (writeByte a b m) = readByte k m := by
  induction m with
  | nil => exact putByte_other b [] h
  | cons c m ih =>
    obtain ⟨n, c⟩ := c
    simp only [writeByte]; split
    · exact putByte_other b _ h
    · split
      · next hna => rw [putByte_other b _ h]; subst hna; simp [readByte, Ne.symm h]
      · simp only [readByte, ih]

/-! ### The canonical form -/

theorem Memory.wf_iff (m : List Host.Cell) : Memory.wf m = true ↔
    m.Pairwise (fun x y => x.1 < y.1) ∧ ∀ c ∈ m, c.1 < Config.memoryBytes ∧ c.2 ≠ Config.blankByte := by
  simp [Memory.wf]

theorem writeByte_keys {a : Nat} {b : Byte} {m : List Host.Cell} {c : Host.Cell} (h : c ∈ writeByte a b m) :
    c = (a, b) ∧ b ≠ Config.blankByte ∨ c ∈ m := by
  induction m with
  | nil => simp only [writeByte, putByte] at h; split at h <;> simp_all
  | cons x m ih =>
    obtain ⟨k, x⟩ := x
    simp only [writeByte, putByte] at h
    split at h
    · split at h
      · exact .inr h
      · next hb => rcases List.mem_cons.mp h with rfl | h
                   · exact .inl ⟨rfl, hb⟩
                   · exact .inr h
    · split at h
      · split at h
        · exact .inr (List.mem_cons_of_mem _ h)
        · next hb => rcases List.mem_cons.mp h with rfl | h
                     · exact .inl ⟨rfl, hb⟩
                     · exact .inr (List.mem_cons_of_mem _ h)
      · rcases List.mem_cons.mp h with rfl | h
        · exact .inr (by simp)
        · exact (ih h).imp id (List.mem_cons_of_mem _)

theorem writeByte_rising (a : Nat) (b : Byte) (m : List Host.Cell) (h : m.Pairwise fun x y => x.1 < y.1) :
    (writeByte a b m).Pairwise fun x y => x.1 < y.1 := by
  induction m with
  | nil => simp only [writeByte, putByte]; split <;> simp
  | cons x m ih =>
    obtain ⟨k, x⟩ := x
    obtain ⟨hk, hm⟩ := List.pairwise_cons.mp h
    simp only [writeByte, putByte]
    split
    · next hak =>
      split
      · exact h
      · refine List.pairwise_cons.mpr ⟨fun c hc => ?_, h⟩
        rcases List.mem_cons.mp hc with rfl | hc
        · exact hak
        · exact hak.trans (hk c hc)
    · next hak =>
      split
      · next hka =>
        split
        · exact hm
        · exact List.pairwise_cons.mpr ⟨fun c hc => hka ▸ hk c hc, hm⟩
      · next hka =>
        refine List.pairwise_cons.mpr ⟨fun c hc => ?_, ih hm⟩
        rcases writeByte_keys hc with ⟨rfl, _⟩ | hc
        · show k < a
          omega
        · exact hk c hc

/-- A write keeps the canonical form. -/
theorem writeByte_wf {a : Nat} (b : Byte) {m : List Host.Cell} (ha : a < Config.memoryBytes) (h : Memory.wf m = true) :
    Memory.wf (writeByte a b m) = true := by
  rw [Memory.wf_iff] at h ⊢
  refine ⟨writeByte_rising a b m h.1, fun c hc => ?_⟩
  rcases writeByte_keys hc with ⟨rfl, hb⟩ | hc
  · exact ⟨ha, hb⟩
  · exact h.2 c hc

theorem writeBytes_rising (a : Nat) (bs : List Byte) (m : List Host.Cell) (h : m.Pairwise fun x y => x.1 < y.1) :
    (writeBytes a bs m).Pairwise fun x y => x.1 < y.1 := by
  induction bs generalizing a m with
  | nil => exact h
  | cons b bs ih => exact ih _ _ (writeByte_rising a b m h)

theorem writeBytes_wf (a : Nat) (bs : List Byte) (m : List Host.Cell) (ha : a + bs.length ≤ Config.memoryBytes)
    (h : Memory.wf m = true) : Memory.wf (writeBytes a bs m) = true := by
  induction bs generalizing a m with
  | nil => exact h
  | cons b bs ih =>
    have hl : (b :: bs).length = bs.length + 1 := rfl
    exact ih _ _ (by omega) (writeByte_wf b (by omega) h)

/-! ### Runs of bytes -/

theorem readByte_writeBytes_other {a k : Nat} (bs : List Byte) (m : List Host.Cell)
    (h : k < a ∨ a + bs.length ≤ k) : readByte k (writeBytes a bs m) = readByte k m := by
  induction bs generalizing a m with
  | nil => rfl
  | cons b bs ih =>
    have hl : (b :: bs).length = bs.length + 1 := rfl
    rw [writeBytes, ih _ (by omega), readByte_writeByte_other b m (by omega)]

theorem readBytes_length (a n : Nat) (m : List Host.Cell) : (readBytes a n m).length = n := by
  induction n generalizing a with
  | zero => rfl
  | succ n ih => simp [readBytes, ih]

/-- Bytes read back as they were written. -/
theorem readBytes_writeBytes (a : Nat) (bs : List Byte) (m : List Host.Cell) (h : m.Pairwise fun x y => x.1 < y.1) :
    readBytes a bs.length (writeBytes a bs m) = bs := by
  induction bs generalizing a m with
  | nil => rfl
  | cons b bs ih =>
    rw [writeBytes, List.length_cons, readBytes, readByte_writeBytes_other bs _ (.inl (Nat.lt_succ_self a)),
      readByte_writeByte_same a b m h, ih _ _ (writeByte_rising a b m h)]

/-! ### Blocks -/

theorem bytesOf_length (n x : Nat) : (bytesOf n x).length = n := by
  induction n with
  | zero => rfl
  | succ n ih => simp [bytesOf, ih]

@[simp] theorem withCrc_length (body : List Byte) : (withCrc body).length = body.length + 2 := by
  simp [withCrc, bytesOf_length]

@[simp] theorem withoutCrc_length (body : List Byte) (flaw : Word) : (withoutCrc body flaw).length = body.length + 2 := by
  simp [withoutCrc, bytesOf_length]

theorem Block.room_add (b : Block) : b.room + 2 = b.place.2 := by cases b <;> rfl

theorem Block.ends (b : Block) : b.place.1 + b.place.2 ≤ Config.memoryBytes := by cases b <;> decide

theorem Block.filled_length (b : Block) (values : List Byte) (h : values.length ≤ b.room) :
    (b.filled values).length = b.room := by simp [Block.filled]; omega

/-- A written block holds its values and their CRC. -/
theorem Block.bytes_write (b : Block) (values : List Byte) (m : List Host.Cell) (h : values.length ≤ b.room)
    (hm : m.Pairwise fun x y => x.1 < y.1) : b.bytes (b.write values m) = withCrc (b.filled values) := by
  have hl : (withCrc (b.filled values)).length = b.place.2 := by
    rw [withCrc_length, b.filled_length values h, b.room_add]
  rw [Block.bytes, ← hl]
  exact readBytes_writeBytes _ _ _ hm

theorem take_withCrc (body : List Byte) : (withCrc body).take body.length = body := by simp [withCrc]

/-- A written block passes its CRC. -/
theorem Block.write_passes (b : Block) (values : List Byte) (m : List Host.Cell) (h : values.length ≤ b.room)
    (hm : m.Pairwise fun x y => x.1 < y.1) : b.passes (b.write values m) = true := by
  have ht := take_withCrc (b.filled values)
  rw [b.filled_length values h] at ht
  simp [Block.passes, b.bytes_write values m h hm, ht]

theorem bytesOf_two_inj {x y : Nat} (hx : x < 65536) (hy : y < 65536) (h : bytesOf 2 x = bytesOf 2 y) : x = y := by
  simp only [bytesOf, byte, List.cons.injEq, and_true] at h
  obtain ⟨h1, h2⟩ := h
  have h1 := congrArg BitVec.toNat h1
  have h2 := congrArg BitVec.toNat h2
  simp at h1 h2
  omega

/-- Bytes ending in anything but their CRC do not end in it. -/
theorem withoutCrc_ne (body : List Byte) (flaw : Word) : withoutCrc body flaw ≠ withCrc body := by
  intro h
  have h := bytesOf_two_inj (BitVec.isLt _) (BitVec.isLt _) (List.append_cancel_left h)
  have h := BitVec.eq_of_toNat_eq h
  have key : ∀ f : Word, f ≠ 0 → crc16 body ^^^ f ≠ crc16 body := by
    intro f hf e
    have e := congrArg (fun x => crc16 body ^^^ x) e
    simp only [← BitVec.xor_assoc, BitVec.xor_self, BitVec.zero_xor] at e
    exact hf e
  split at h
  · exact key 1 (by decide) h
  · next hf => exact key flaw hf h

theorem Block.bytes_cutShort (b : Block) (n : Nat) (m : List Host.Cell) (hm : m.Pairwise fun x y => x.1 < y.1) :
    b.bytes (b.cutShort n m)
      = withoutCrc ((List.range b.room).map (Config.tornByte n)) (Config.tornCrc n) := by
  have hl : (withoutCrc ((List.range b.room).map (Config.tornByte n)) (Config.tornCrc n)).length = b.place.2 := by
    simp [b.room_add]
  rw [Block.bytes, ← hl]
  exact readBytes_writeBytes _ _ _ hm

/-- A block whose write was cut short fails its CRC. -/
theorem Block.cutShort_fails (b : Block) (n : Nat) (m : List Host.Cell) (hm : m.Pairwise fun x y => x.1 < y.1) :
    b.passes (b.cutShort n m) = false := by
  have hl : ((List.range b.room).map (Config.tornByte n)).length = b.room := by simp
  simp only [Block.passes, b.bytes_cutShort n m hm, decide_eq_false_iff_not]
  intro h
  refine withoutCrc_ne ((List.range b.room).map (Config.tornByte n)) (Config.tornCrc n) (h.trans ?_)
  congr 1
  simp [withoutCrc, hl]

/-- A zero byte never brings the register of a CRC to 0. -/
theorem crcShift_ne {r : Word} (h : r ≠ 0) : crcShift r ≠ 0 := by
  unfold crcShift
  split
  · intro e
    have := congrArg (fun w : Word => w.getLsbD 0) e
    simp at this
  · rename_i hm
    intro e
    refine h (BitVec.eq_of_toNat_eq ?_)
    have e' := congrArg BitVec.toNat e
    rw [BitVec.msb_eq_decide] at hm
    simp [BitVec.toNat_shiftLeft, Nat.shiftLeft_eq] at e' hm ⊢
    omega

theorem crc16_zeros (n : Nat) : crc16 (List.replicate n 0) ≠ 0 := by
  have step : ∀ (n : Nat) (r : Word), r ≠ 0 → (List.replicate n (0 : Byte)).foldl crcByte r ≠ 0 := by
    intro n
    induction n with
    | zero => intro r h; exact h
    | succ n ih =>
      intro r h
      refine ih (crcByte r 0) ?_
      have e : r ^^^ ((0 : Byte).setWidth 16 <<< 8) = r := by simp
      rw [crcByte, e]
      iterate 8 apply crcShift_ne
      exact h
  exact step n 0xFFFF (by decide)

theorem readBytes_blank (a n : Nat) : readBytes a n [] = List.replicate n 0 := by
  induction n generalizing a with
  | zero => rfl
  | succ n ih => rw [readBytes, ih, List.replicate_succ]; rfl

/-- A block in which nothing has been written fails its CRC. -/
theorem Block.blank_fails (b : Block) : b.passes [] = false := by
  rw [Block.passes, Block.bytes, readBytes_blank, decide_eq_false_iff_not]
  intro h
  have h' := congrArg (fun l => l.drop b.room) h
  have hc : bytesOf 2 (crc16 (List.replicate b.room 0)).toNat = bytesOf 2 0 := by
    rw [← Block.room_add b] at h'
    simpa [withCrc, List.drop_append, bytesOf, byte] using h'.symm
  exact crc16_zeros _ (BitVec.eq_of_toNat_eq (by simpa using bytesOf_two_inj (by omega) (by omega) hc))

/-- Bytes outside a block stay when it is written. -/
theorem Block.write_other (b : Block) (values : List Byte) (m : List Host.Cell) (h : values.length ≤ b.room) {k : Nat}
    (hk : k < b.place.1 ∨ b.place.1 + b.place.2 ≤ k) : readByte k (b.write values m) = readByte k m :=
  readByte_writeBytes_other _ m (by rwa [withCrc_length, b.filled_length values h, b.room_add])

theorem Block.cutShort_other (b : Block) (n : Nat) (m : List Host.Cell) {k : Nat}
    (hk : k < b.place.1 ∨ b.place.1 + b.place.2 ≤ k) : readByte k (b.cutShort n m) = readByte k m :=
  readByte_writeBytes_other _ m (by simpa [b.room_add] using hk)

theorem Block.write_wf (b : Block) (values : List Byte) (m : List Host.Cell) (h : values.length ≤ b.room)
    (hm : Memory.wf m = true) : Memory.wf (b.write values m) = true :=
  writeBytes_wf _ _ m (by rw [withCrc_length, b.filled_length values h, b.room_add]; exact b.ends) hm

theorem Block.cutShort_wf (b : Block) (n : Nat) (m : List Host.Cell) (hm : Memory.wf m = true) :
    Memory.wf (b.cutShort n m) = true :=
  writeBytes_wf _ _ m (by simpa [b.room_add] using b.ends) hm

end Sys2Proof.Machine
end

