-- ==== Sys2Proof/Laws/Images.lean ====
section
/-! SUPPORT. A block gives back the image that was written into it: the posture block every posture whose numbers fit
their two bytes, the settings block all settings whose numbers fit their fields. -/

namespace Sys2Proof.Machine

/-! ### Fields -/

theorem byte_toNat (n : Nat) : (byte n).toNat = n % 256 := by simp [byte]

theorem natOfBytes_one (x : Nat) (h : x < 256) : natOfBytes (bytesOf 1 x) = x := by
  simp [natOfBytes, bytesOf, byte_toNat]; omega

theorem natOfBytes_two (x : Nat) (h : x < 65536) : natOfBytes (bytesOf 2 x) = x := by
  simp [natOfBytes, bytesOf, byte_toNat]; omega

theorem fieldOf_one {x k : Nat} {bs rest : List Byte} (hd : bs.drop k = bytesOf 1 x ++ rest) (h : x < 256) :
    fieldOf k 1 bs = x := by
  rw [fieldOf, hd]; exact natOfBytes_one x h

theorem fieldOf_two {x k : Nat} {bs rest : List Byte} (hd : bs.drop k = bytesOf 2 x ++ rest) (h : x < 65536) :
    fieldOf k 2 bs = x := by
  rw [fieldOf, hd]; exact natOfBytes_two x h

/-- What lies behind the next part of some bytes. -/
theorem drop_next {bs a rest : List Byte} {k : Nat} (w : Nat) (h : bs.drop k = a ++ rest) (ha : a.length = w) :
    bs.drop (k + w) = rest := by
  rw [← List.drop_drop, h, ← ha, List.drop_left]

theorem flat_length {α : Type} (put : α → List Byte) (w : Nat) (h : ∀ a, (put a).length = w) (l : List α) :
    (l.flatMap put).length = w * l.length := by
  induction l with
  | nil => rfl
  | cons a l ih => simp [List.flatMap_cons, h, ih, Nat.mul_succ, Nat.add_comm]

/-- The records behind the first `i` of a row of equal ones. -/
theorem flat_drop {α : Type} (put : α → List Byte) (w : Nat) (h : ∀ a, (put a).length = w) (l : List α) (rest : List Byte)
    (i : Nat) (hi : i < l.length) : ∃ more, (l.flatMap put ++ rest).drop (w * i) = put l[i] ++ more := by
  induction l generalizing i with
  | nil => exact absurd hi (by simp)
  | cons a l ih =>
    cases i with
    | zero => exact ⟨l.flatMap put ++ rest, by simp [List.flatMap_cons]⟩
    | succ i =>
      obtain ⟨more, hm⟩ := ih i (by simpa using hi)
      refine ⟨more, ?_⟩
      rw [List.flatMap_cons, List.append_assoc, Nat.mul_succ, Nat.add_comm (w * i) w, ← List.drop_drop, ← h a,
        List.drop_left, h a]
      simpa using hm

/-- Record `i` of a row that lies behind `k` bytes. -/
theorem row_drop {α : Type} {n : Nat} {put : α → List Byte} {w : Nat} (h : ∀ a, (put a).length = w) {v : Vector α n}
    {bs rest : List Byte} {k : Nat} (hd : bs.drop k = v.toList.flatMap put ++ rest) (i : Nat) (hi : i < n) :
    ∃ more, bs.drop (k + w * i) = put v[i] ++ more := by
  obtain ⟨more, hm⟩ := flat_drop put w h v.toList rest i (by simpa using hi)
  refine ⟨more, ?_⟩
  rw [← List.drop_drop, hd, hm]
  simp

theorem row_length {α : Type} {n : Nat} {put : α → List Byte} {w : Nat} (h : ∀ a, (put a).length = w) (v : Vector α n) :
    (v.toList.flatMap put).length = w * n := by rw [flat_length put w h, Vector.length_toList]

/-! ### The posture block -/

theorem slideState_back (x : SlideState) : slideStateOf x.code = x := by cases x <;> rfl
theorem awningState_back (x : AwningState) : awningStateOf x.code = x := by cases x <;> rfl
theorem jackState_back (x : JackState) : jackStateOf x.code = x := by cases x <;> rfl
theorem boolBit_back (b : Bool) : decide (boolBit b ≠ 0) = b := by cases b <;> rfl

theorem SlideImage.put_length (x : SlideImage) : x.put.length = 6 := by simp [SlideImage.put, bytesOf_length]
theorem AwningImage.put_length (x : AwningImage) : x.put.length = 4 := by simp [AwningImage.put, bytesOf_length]
theorem JackImage.put_length (x : JackImage) : x.put.length = 3 := by simp [JackImage.put, bytesOf_length]

theorem PostureImage.put_length (x : PostureImage) : x.put.length = 50 := by
  simp only [PostureImage.put, List.length_append, row_length SlideImage.put_length, row_length AwningImage.put_length,
    row_length JackImage.put_length]

theorem slideImage_back (x : SlideImage) (rest : List Byte) (hf : x.front < 65536) (hr : x.rear < 65536) :
    slideImageOf (x.put ++ rest) = x := by
  have h0 : fieldOf 0 2 (x.put ++ rest) = x.front := natOfBytes_two _ hf
  have h2 : fieldOf 2 2 (x.put ++ rest) = x.rear := natOfBytes_two _ hr
  have h4 : fieldOf 4 1 (x.put ++ rest) = x.state.code := natOfBytes_one _ (by cases x.state <;> decide)
  have h5 : fieldOf 5 1 (x.put ++ rest) = boolBit x.homed := natOfBytes_one _ (by cases x.homed <;> decide)
  simp only [slideImageOf, h0, h2, h4, h5, slideState_back, boolBit_back]

theorem awningImage_back (x : AwningImage) (rest : List Byte) (hc : x.count < 65536) :
    awningImageOf (x.put ++ rest) = x := by
  have h0 : fieldOf 0 2 (x.put ++ rest) = x.count := natOfBytes_two _ hc
  have h2 : fieldOf 2 1 (x.put ++ rest) = x.state.code := natOfBytes_one _ (by cases x.state <;> decide)
  have h3 : fieldOf 3 1 (x.put ++ rest) = boolBit x.homed := natOfBytes_one _ (by cases x.homed <;> decide)
  simp only [awningImageOf, h0, h2, h3, awningState_back, boolBit_back]

theorem jackImage_back (x : JackImage) (rest : List Byte) (hs : x.stroke < 65536) :
    jackImageOf (x.put ++ rest) = x := by
  have h0 : fieldOf 0 1 (x.put ++ rest) = x.state.code := natOfBytes_one _ (by cases x.state <;> decide)
  have h1 : fieldOf 1 2 (x.put ++ rest) = x.stroke := natOfBytes_two _ hs
  simp only [jackImageOf, h0, h1, jackState_back]

theorem posture_back (x : PostureImage) (rest : List Byte) (h : x.Fits) : postureOf (x.put ++ rest) = x := by
  obtain ⟨hs, ha, hj⟩ := h
  generalize hbs : x.put ++ rest = bs
  have d0 : bs.drop 0 = x.slides.toList.flatMap SlideImage.put ++ (x.awnings.toList.flatMap AwningImage.put
      ++ (x.jacks.toList.flatMap JackImage.put ++ rest)) := by
    simp only [← hbs, PostureImage.put, List.append_assoc, List.drop_zero]
  have d1 := drop_next 24 d0 (row_length SlideImage.put_length _)
  have d2 := drop_next 8 d1 (row_length AwningImage.put_length _)
  unfold postureOf
  obtain ⟨slides, awnings, jacks⟩ := x
  congr 1
  · ext1 i hi
    obtain ⟨more, hm⟩ := row_drop SlideImage.put_length d0 i hi
    rw [Nat.zero_add] at hm
    rw [Vector.getElem_ofFn, hm]
    exact slideImage_back _ _ (hs ⟨i, hi⟩).1 (hs ⟨i, hi⟩).2
  · ext1 i hi
    obtain ⟨more, hm⟩ := row_drop AwningImage.put_length d1 i hi
    rw [Nat.zero_add] at hm
    rw [Vector.getElem_ofFn, hm]
    exact awningImage_back _ _ (ha ⟨i, hi⟩)
  · ext1 i hi
    obtain ⟨more, hm⟩ := row_drop JackImage.put_length d2 i hi
    rw [Vector.getElem_ofFn, hm]
    exact jackImage_back _ _ (hj ⟨i, hi⟩)

/-- The posture block gives back the posture that was written into it. -/
theorem storedPosture_write (x : PostureImage) (m : List Host.Cell) (h : x.Fits) (hm : Memory.wf m = true) :
    storedPosture (Block.posture.write x.put m) = some x := by
  have hl : x.put.length ≤ Block.posture.room := by rw [x.put_length]; decide
  have hr := ((Memory.wf_iff m).mp hm).1
  rw [storedPosture, if_pos (Block.posture.write_passes _ m hl hr), Block.posture.bytes_write _ m hl hr, withCrc,
    Block.filled, List.append_assoc, posture_back x _ h]

/-! ### The settings block -/

theorem signed_back (x : Int) (h : -32768 ≤ x ∧ x < 32768) : asSigned (signed 16 x) = x := by
  have : ((signed 16 x : Nat) : Int) = x % 65536 := by
    rw [signed]; simp; omega
  unfold asSigned; split <;> omega

theorem signed_lt (x : Int) : signed 16 x < 65536 := by
  rw [signed]; simp; omega

theorem kind_back (k : StepKind) : kindOfCode k.code = k := by cases k <;> rfl

theorem conversions_back (n : Nat) (h : n = 4 ∨ n = 8 ∨ n = 16 ∨ n = 32) (v : Nat) (hv : v % 4 = conversionsCode n) :
    conversionsOf ⟨v % 4, Nat.mod_lt _ (by decide)⟩ = n := by
  simp only [hv]
  rcases h with rfl | rfl | rfl | rfl <;> rfl

theorem index_back (k : Option StepIndex) : indexOf (stepCode k) = k := by
  cases k with
  | none => rfl
  | some k => simp [indexOf, stepCode]

theorem stepCode_lt (k : Option StepIndex) : stepCode k < 256 := by
  cases k with
  | none => decide
  | some k => exact k.2.trans (by decide)

theorem index_cut (k : Option StepIndex) : indexOf (stepCode k % 64) = k := by
  cases k with
  | none => rfl
  | some k => have := k.2; simp [indexOf, stepCode, Nat.mod_eq_of_lt (show k.val < 64 by omega)]

theorem channel_back (c : Option Channel) :
    channelOfCode ((c.map Channel.code).getD 0) = c ∧ (c.map Channel.code).getD 0 < 16 := by
  rcases c with _ | (j | i | a)
  · decide
  · revert j; decide
  · revert i; decide
  · revert a; decide

theorem SlotSettings.put_length (c : SlotSettings) : c.put.length = 9 := by simp [SlotSettings.put, bytesOf_length]
theorem SlotSettings.putCounter_length (c : SlotSettings) : c.putCounter.length = 5 := by
  simp [SlotSettings.putCounter, bytesOf_length]
theorem StepRec.put_length (r : StepRec) : r.put.length = 2 := by simp [StepRec.put, bytesOf_length]

theorem step_back (r : StepRec) (rest : List Byte) : stepOf (r.put ++ rest) = r := by
  obtain ⟨kind, channel, after, pair, skip, next⟩ := r
  obtain ⟨hc, hlt⟩ := channel_back channel
  have hn := index_cut next
  have hk := kind_back kind
  have hk8 : kind.code < 8 := by cases kind <;> decide
  generalize hC : (channel.map Channel.code).getD 0 = c at hc hlt
  generalize hN : stepCode next = n at hn
  generalize hK : kind.code = k at hk hk8
  generalize hF : 4 * boolBit after + 2 * boolBit pair + boolBit skip = f
  have hf : f < 8 := by subst hF; cases after <;> cases pair <;> cases skip <;> decide
  have hv : fieldOf 0 2 (StepRec.put ⟨kind, channel, after, pair, skip, next⟩ ++ rest)
      = ((k * 8 + f) * 16 + c) * 64 + n % 64 := by
    refine (natOfBytes_two _ ?_).trans ?_ <;>
      simp only [pack, List.foldl_cons, List.foldl_nil, stepFlags, hC, hN, hK, hF] <;> omega
  have hb : ∀ p, (((k * 8 + f) * 16 + c) * 64 + n % 64).testBit (p + 10) = (k * 8 + f).testBit p := by
    intro p
    rw [Nat.testBit_add, show (((k * 8 + f) * 16 + c) * 64 + n % 64) / 2 ^ 10 = k * 8 + f by
      omega]
  have hfl : ∀ p, p < 3 → (k * 8 + f).testBit p = f.testBit p := by
    intro p hp
    have e : k * 8 + f = 2 ^ 3 * k + f := by omega
    rw [e, Nat.testBit_two_pow_mul_add _ hf, if_pos hp]
  unfold stepOf
  simp only [hv]
  have t0 := (hb 0).trans (hfl 0 (by decide))
  have t1 := (hb 1).trans (hfl 1 (by decide))
  have t2 := (hb 2).trans (hfl 2 (by decide))
  norm_num at t0 t1 t2
  rw [t0, t1, t2]
  have e1 : (((k * 8 + f) * 16 + c) * 64 + n % 64) / 8192 % 8 = k := by omega
  have e2 : (((k * 8 + f) * 16 + c) * 64 + n % 64) / 64 % 16 = c := by omega
  have e3 : (((k * 8 + f) * 16 + c) * 64 + n % 64) % 64 = n % 64 := by omega
  rw [e1, e2, e3, hk, hc, hn]
  subst hF
  cases after <;> cases pair <;> cases skip <;> rfl

theorem slot_back (slot : Slot) (c : SlotSettings) (rest more : List Byte) (counter : Option (List Byte))
    (h : c.Fits slot) (hc : counter = if hasExceedance slot then some (c.putCounter ++ more) else none) :
    slotOf (c.put ++ rest) counter = c := by
  have hp : pack [(1, boolBit c.enabled), (2, conversionsCode c.conversions), (4, c.signs.toNat)]
      = (boolBit c.enabled * 4 + conversionsCode c.conversions) * 16 + c.signs.toNat := by
    have h1 : boolBit c.enabled < 2 := by cases c.enabled <;> decide
    have h2 : conversionsCode c.conversions < 4 := by unfold conversionsCode; split_ifs <;> decide
    have h3 := c.signs.isLt
    simp only [pack, List.foldl_cons, List.foldl_nil]
    omega
  have h1 : boolBit c.enabled < 2 := by cases c.enabled <;> decide
  have h2 : conversionsCode c.conversions < 4 := by unfold conversionsCode; split_ifs <;> decide
  have h3 := c.signs.isLt
  have f0 : fieldOf 0 1 (c.put ++ rest)
      = (boolBit c.enabled * 4 + conversionsCode c.conversions) * 16 + c.signs.toNat :=
    (natOfBytes_one _ (by rw [hp]; omega)).trans hp
  have f1 : fieldOf 1 2 (c.put ++ rest) = c.gain := natOfBytes_two _ h.gain
  have f3 : fieldOf 3 2 (c.put ++ rest) = signed 16 c.offset := natOfBytes_two _ (signed_lt _)
  have f5 : fieldOf 5 2 (c.put ++ rest) = signed 16 c.windowMin := natOfBytes_two _ (signed_lt _)
  have f7 : fieldOf 7 2 (c.put ++ rest) = signed 16 c.windowMax := natOfBytes_two _ (signed_lt _)
  have g0 : fieldOf 0 2 (c.putCounter ++ more) = signed 16 c.threshold := natOfBytes_two _ (signed_lt _)
  have g2 : fieldOf 2 2 (c.putCounter ++ more) = signed 16 c.release := natOfBytes_two _ (signed_lt _)
  have g4 : fieldOf 4 1 (c.putCounter ++ more) = c.tripCount := natOfBytes_one _ h.tripCount
  have enabled : decide (fieldOf 0 1 (c.put ++ rest) / 64 % 2 ≠ 0) = c.enabled := by
    rw [f0, show ((boolBit c.enabled * 4 + conversionsCode c.conversions) * 16 + c.signs.toNat) / 64 % 2
      = boolBit c.enabled by omega]
    exact boolBit_back _
  have signs : BitVec.ofNat 4 (fieldOf 0 1 (c.put ++ rest)) = c.signs := by
    apply BitVec.eq_of_toNat_eq
    rw [BitVec.toNat_ofNat, f0]; omega
  have tail : (counter.map fun b => asSigned (fieldOf 0 2 b)).getD 0 = c.threshold
      ∧ (counter.map fun b => asSigned (fieldOf 2 2 b)).getD 0 = c.release
      ∧ (counter.map (fieldOf 4 1)).getD 1 = c.tripCount := by
    subst hc
    cases he : hasExceedance slot with
    | true =>
      simp only [if_true, Option.map_some, Option.getD_some, g0, g2, g4, signed_back _ h.threshold,
        signed_back _ h.release, and_self]
    | false => obtain ⟨h1, h2, h3⟩ := h.plain he; simp [h1, h2, h3]
  unfold slotOf
  rw [enabled, signs, f1, f3, f5, f7, signed_back _ h.offset, signed_back _ h.windowMin, signed_back _ h.windowMax,
    tail.1, tail.2.1, tail.2.2,
    conversions_back c.conversions h.conversions (fieldOf 0 1 (c.put ++ rest) / 16) (by rw [f0]; omega)]

theorem counterSlots_index (slot : Slot) (h : hasExceedance slot = true) :
    ∃ hi : counterSlots.idxOf slot < counterSlots.length, counterSlots[counterSlots.idxOf slot] = slot := by
  revert h; revert slot; decide

theorem bytesOf_one (n : Nat) : (bytesOf 1 n).length = 1 := bytesOf_length 1 n
theorem bytesOf_two (n : Nat) : (bytesOf 2 n).length = 2 := bytesOf_length 2 n

theorem Settings.permissions_length (x : Settings) : (x.permissions.toList.flatMap fun p => bytesOf 1 p.toNat).length = 4 :=
  row_length (w := 1) (fun p : BitVec 6 => bytesOf_one p.toNat) _
theorem Settings.jackX_length (x : Settings) : (x.jackX.toList.flatMap fun n => bytesOf 2 (signed 16 n)).length = 12 :=
  row_length (w := 2) (fun n => bytesOf_two (signed 16 n)) _
theorem Settings.jackY_length (x : Settings) : (x.jackY.toList.flatMap fun n => bytesOf 2 (signed 16 n)).length = 12 :=
  row_length (w := 2) (fun n => bytesOf_two (signed 16 n)) _
theorem Settings.maxStroke_length (x : Settings) : (x.maxStroke.toList.flatMap (bytesOf 2)).length = 12 :=
  row_length (w := 2) bytesOf_two _
theorem Settings.slideFull_length (x : Settings) : (x.slideFull.toList.flatMap (bytesOf 2)).length = 8 :=
  row_length (w := 2) bytesOf_two _
theorem Settings.awningFull_length (x : Settings) : (x.awningFull.toList.flatMap (bytesOf 2)).length = 4 :=
  row_length (w := 2) bytesOf_two _
theorem Settings.clearance_length (x : Settings) : (x.clearance.toList.flatMap (bytesOf 2)).length = 4 :=
  row_length (w := 2) bytesOf_two _
theorem Settings.support_length (x : Settings) : (x.support.toList.flatMap fun b => bytesOf 1 (boolBit b)).length = 4 :=
  row_length (w := 1) (fun b => bytesOf_one (boolBit b)) _
theorem Settings.conflict_length (x : Settings) : (x.conflict.toList.flatMap fun b => bytesOf 1 b.toNat).length = 2 :=
  row_length (w := 1) (fun b : BitVec 4 => bytesOf_one b.toNat) _
theorem Settings.autoRetract_length (x : Settings) : (x.autoRetract.toList.flatMap fun b => bytesOf 1 (boolBit b)).length = 2 :=
  row_length (w := 1) (fun b => bytesOf_one (boolBit b)) _
theorem Settings.slots_length (x : Settings) : (x.slots.toList.flatMap SlotSettings.put).length = 144 :=
  row_length SlotSettings.put_length _
theorem Settings.counters_length (x : Settings) : (counterSlots.flatMap fun slot => (x.slots[slot]).putCounter).length = 35 :=
  (flat_length _ 5 (fun slot => (x.slots[slot]).putCounter_length) counterSlots).trans (by decide)
theorem Settings.programs_length (x : Settings) : (x.programs.toList.flatMap fun k => bytesOf 1 (stepCode k)).length = 4 :=
  row_length (w := 1) (fun k => bytesOf_one (stepCode k)) _

theorem nats_back {n : Nat} {v : Vector Nat n} {bs rest : List Byte} {k : Nat}
    (hd : bs.drop k = v.toList.flatMap (bytesOf 2) ++ rest) (h : ∀ i : Fin n, v[i] < 65536) :
    (Vector.ofFn fun i : Fin n => fieldOf (k + 2 * i.val) 2 bs) = v := by
  ext1 i hi
  obtain ⟨more, hm⟩ := row_drop bytesOf_two hd i hi
  rw [Vector.getElem_ofFn, fieldOf_two hm (h ⟨i, hi⟩)]

theorem ints_back {n : Nat} {v : Vector Int n} {bs rest : List Byte} {k : Nat}
    (hd : bs.drop k = v.toList.flatMap (fun x => bytesOf 2 (signed 16 x)) ++ rest)
    (h : ∀ i : Fin n, -32768 ≤ v[i] ∧ v[i] < 32768) :
    (Vector.ofFn fun i : Fin n => asSigned (fieldOf (k + 2 * i.val) 2 bs)) = v := by
  ext1 i hi
  obtain ⟨more, hm⟩ := row_drop (fun x : Int => bytesOf_two (signed 16 x)) hd i hi
  rw [Vector.getElem_ofFn, fieldOf_two hm (signed_lt _)]
  exact signed_back _ (h ⟨i, hi⟩)

theorem bools_back {n : Nat} {v : Vector Bool n} {bs rest : List Byte} {k : Nat}
    (hd : bs.drop k = v.toList.flatMap (fun b => bytesOf 1 (boolBit b)) ++ rest) :
    (Vector.ofFn fun i : Fin n => decide (fieldOf (k + i.val) 1 bs ≠ 0)) = v := by
  ext1 i hi
  obtain ⟨more, hm⟩ := row_drop (fun b : Bool => bytesOf_one (boolBit b)) hd i hi
  rw [Nat.one_mul] at hm
  rw [Vector.getElem_ofFn, fieldOf_one hm ((by decide : ∀ b : Bool, boolBit b < 256) _)]
  exact boolBit_back _

theorem sets_back {n w : Nat} {v : Vector (BitVec w) n} {bs rest : List Byte} {k : Nat}
    (hd : bs.drop k = v.toList.flatMap (fun b => bytesOf 1 b.toNat) ++ rest) (hw : 2 ^ w ≤ 256) :
    (Vector.ofFn fun i : Fin n => BitVec.ofNat w (fieldOf (k + i.val) 1 bs)) = v := by
  ext1 i hi
  obtain ⟨more, hm⟩ := row_drop (fun b : BitVec w => bytesOf_one b.toNat) hd i hi
  rw [Nat.one_mul] at hm
  rw [Vector.getElem_ofFn, fieldOf_one hm ((BitVec.isLt _).trans_le hw)]
  exact BitVec.eq_of_toNat_eq (by simp)

theorem programs_back {n : Nat} {v : Vector (Option StepIndex) n} {bs rest : List Byte} {k : Nat}
    (hd : bs.drop k = v.toList.flatMap (fun x => bytesOf 1 (stepCode x)) ++ rest) :
    (Vector.ofFn fun i : Fin n => indexOf (fieldOf (k + i.val) 1 bs)) = v := by
  ext1 i hi
  obtain ⟨more, hm⟩ := row_drop (fun x : Option StepIndex => bytesOf_one (stepCode x)) hd i hi
  rw [Nat.one_mul] at hm
  rw [Vector.getElem_ofFn, fieldOf_one hm (stepCode_lt _)]
  exact index_back _

theorem steps_back {n : Nat} {v : Vector StepRec n} {bs rest : List Byte} {k : Nat}
    (hd : bs.drop k = v.toList.flatMap StepRec.put ++ rest) :
    (Vector.ofFn fun i : Fin n => stepOf (bs.drop (k + 2 * i.val))) = v := by
  ext1 i hi
  obtain ⟨more, hm⟩ := row_drop StepRec.put_length hd i hi
  rw [Vector.getElem_ofFn, hm]
  exact step_back _ _

theorem slots_back {v : Vector SlotSettings 16} {bs rest more : List Byte}
    (hd : bs.drop 72 = v.toList.flatMap SlotSettings.put ++ rest)
    (hc : bs.drop 216 = (counterSlots.flatMap fun slot => SlotSettings.putCounter v[slot]) ++ more)
    (h : ∀ slot : Slot, SlotSettings.Fits slot v[slot]) :
    (Vector.ofFn fun i : Fin 16 => slotOf (bs.drop (72 + 9 * i.val)) (counterBytes i bs)) = v := by
  ext1 i hi
  obtain ⟨rest', hm⟩ := row_drop SlotSettings.put_length hd i hi
  rw [Vector.getElem_ofFn, hm]
  cases he : hasExceedance ⟨i, hi⟩ with
  | false => exact slot_back ⟨i, hi⟩ _ rest' [] _ (h ⟨i, hi⟩) (by simp [counterBytes, he])
  | true =>
    obtain ⟨hn, hs⟩ := counterSlots_index ⟨i, hi⟩ he
    obtain ⟨more', hm'⟩ := flat_drop (fun slot : Slot => SlotSettings.putCounter v[slot]) 5
      (fun slot => SlotSettings.putCounter_length _) counterSlots more _ hn
    rw [← hc, List.drop_drop, hs] at hm'
    exact slot_back ⟨i, hi⟩ _ rest' more' _ (h ⟨i, hi⟩) (by rw [counterBytes, if_pos he, if_pos he, hm']; rfl)

theorem settings_back (x : Settings) (rest : List Byte) (h : x.Fits) : settingsOf (x.put ++ rest) = x := by
  generalize hbs : x.put ++ rest = bs
  have d0 : bs.drop 0 = x.put ++ rest := by rw [hbs, List.drop_zero]
  simp only [Settings.put, Settings.putLevelling, Settings.putInterlock, Settings.putTables, List.append_assoc] at d0
  have d4 : bs.drop 4 = _ := drop_next 4 d0 (x.permissions_length)
  have d5 : bs.drop 5 = _ := drop_next 1 d4 (bytesOf_one _)
  have d6 : bs.drop 6 = _ := drop_next 1 d5 (bytesOf_one _)
  have d7 : bs.drop 7 = _ := drop_next 1 d6 (bytesOf_one _)
  have d9 : bs.drop 9 = _ := drop_next 2 d7 (bytesOf_two _)
  have d10 : bs.drop 10 = _ := drop_next 1 d9 (bytesOf_one _)
  have d11 : bs.drop 11 = _ := drop_next 1 d10 (bytesOf_one _)
  have d23 : bs.drop 23 = _ := drop_next 12 d11 (x.jackX_length)
  have d35 : bs.drop 35 = _ := drop_next 12 d23 (x.jackY_length)
  have d47 : bs.drop 47 = _ := drop_next 12 d35 (x.maxStroke_length)
  have d55 : bs.drop 55 = _ := drop_next 8 d47 (x.slideFull_length)
  have d59 : bs.drop 59 = _ := drop_next 4 d55 (x.awningFull_length)
  have d63 : bs.drop 63 = _ := drop_next 4 d59 (x.clearance_length)
  have d64 : bs.drop 64 = _ := drop_next 1 d63 (bytesOf_one _)
  have d68 : bs.drop 68 = _ := drop_next 4 d64 (x.support_length)
  have d70 : bs.drop 70 = _ := drop_next 2 d68 (x.conflict_length)
  have d72 : bs.drop 72 = _ := drop_next 2 d70 (x.autoRetract_length)
  have d216 : bs.drop 216 = _ := drop_next 144 d72 (x.slots_length)
  have d251 : bs.drop 251 = _ := drop_next 35 d216 (x.counters_length)
  have d255 : bs.drop 255 = _ := drop_next 4 d251 (x.programs_length)
  have permissions := sets_back d0 (by decide)
  simp only [Nat.zero_add] at permissions
  have flag := (by decide : ∀ b : Bool, boolBit b < 256) x.autoRelevel
  unfold settingsOf
  rw [permissions, fieldOf_one d4 h.pumpAmps, fieldOf_one d5 h.slideAmps, fieldOf_one d6 h.awningAmps,
    fieldOf_two d7 h.keepWindow, fieldOf_one d9 h.tolerance, fieldOf_one d10 flag, boolBit_back,
    ints_back d11 h.jackX, ints_back d23 h.jackY, nats_back d35 h.maxStroke, nats_back d47 h.slideFull,
    nats_back d55 h.awningFull, nats_back d59 h.clearance, fieldOf_one d63 h.windTripCount, bools_back d64,
    sets_back d68 (by decide), bools_back d70, slots_back d72 d216 h.slots, programs_back d251, steps_back d255]

theorem Settings.put_length (x : Settings) : x.put.length = 319 := by
  simp only [Settings.put, Settings.putLevelling, Settings.putInterlock, Settings.putTables, List.length_append, bytesOf_one, bytesOf_two, x.permissions_length, x.jackX_length, x.jackY_length, x.maxStroke_length, x.slideFull_length, x.awningFull_length, x.clearance_length, x.support_length, x.conflict_length, x.autoRetract_length, x.slots_length, x.counters_length, x.programs_length,
    row_length StepRec.put_length]

/-- The settings block gives back the settings that were written into it. -/
theorem storedSettings_write (x : Settings) (m : List Host.Cell) (h : x.Fits) (hm : Memory.wf m = true) :
    storedSettings (Block.settings.write x.put m) = some x := by
  have hl : x.put.length ≤ Block.settings.room := by rw [x.put_length]; decide
  have hr := ((Memory.wf_iff m).mp hm).1
  rw [storedSettings, if_pos (Block.settings.write_passes _ m hl hr), Block.settings.bytes_write _ m hl hr, withCrc,
    Block.filled, List.append_assoc, settings_back x _ h]

end Sys2Proof.Machine
end

