-- ==== Sys2Proof/Laws/Commands.lean ====
section
/-! SUPPORT. What each command's body does to the sound-state conditions, and that an event carries it to its end. -/

namespace Sys2Proof.Machine

/-! ### The load and the memory -/

theorem loadSettings_sheds (answers : Bool) (s : State) : Sheds s (loadSettings answers s) := by
  unfold loadSettings; extract_lets x s1
  have h : Sheds s s1 := by
    unfold s1; split
    · exact (same_parts ..).sheds
    · exact (same_parts ..).sheds.trans (postEvent_sheds ..)
  clear_value s1
  exact (h.trans (control_same s1 _).sheds).trans (startSampler_same _).sheds

theorem slides_loose (s : State) (x : Vector SlideEntry 4) : Loose s { s with slides := x } := by
  apply Loose.of_eq <;> rfl

theorem awnings_loose (s : State) (x : Vector AwningEntry 2) : Loose s { s with awnings := x } := by
  apply Loose.of_eq <;> rfl

theorem loadSlide_loose (i : Slide) (m : SlideImage) (s : State) : Loose s (loadSlide i m s) := by
  unfold loadSlide; extract_lets x s1
  have h : Loose s s1 := (((setHall_same ..).trans (setHall_same ..)).sheds.toLoose).trans (slides_loose ..)
  clear_value s1
  exact h.trans (slides_loose ..)

theorem loadAwning_loose (a : Awning) (m : AwningImage) (s : State) : Loose s (loadAwning a m s) := by
  unfold loadAwning; extract_lets x s1
  have h : Loose s s1 := ((setHall_same ..).sheds.toLoose).trans (awnings_loose ..)
  clear_value s1
  exact h.trans (awnings_loose ..)

theorem Loose.foldl {α : Type} {f : State → α → State} (hf : ∀ s a, Loose s (f s a)) (l : List α) (s : State) :
    Loose s (l.foldl f s) := by
  induction l generalizing s with
  | nil => exact .rfl
  | cons a l ih => exact (hf s a).trans (ih _)

theorem loadPostureImage_loose (m : PostureImage) (s : State) : Loose s (loadPostureImage m s) := by
  unfold loadPostureImage; extract_lets s1
  have h : Loose s s1 := .foldl (fun s i => loadSlide_loose i _ s) _ s
  clear_value s1
  exact h.trans (.foldl (fun s a => loadAwning_loose a _ s) _ s1)

theorem losePosture_loose (s : State) : Loose s (losePosture s) := by
  refine Loose.trans ?_ (postEvent_sheds ..).toLoose
  apply Loose.of_eq <;> rfl

/-- Fault records and stray tallies stand in no condition a command keeps. -/
theorem clearLoaded_loose (s : State) : Loose s (clearLoaded s) := by
  apply Loose.of_eq <;> simp [clearLoaded]

theorem loadPosture_sheds (answers : Bool) (s : State) : Sheds s (loadPosture answers s) := by
  unfold loadPosture; extract_lets s1 x
  have h : Loose s s1 := by
    unfold s1; split
    · exact loadPostureImage_loose ..
    · exact losePosture_loose s
  clear_value s1
  have h := h.trans (clearLoaded_loose s1)
  exact (h.trans (control_same (clearLoaded s1) _).sheds.toLoose).judged.trans (changeMode_sheds ..)

/-- Only the memory's bytes and the free choices differ. -/
theorem bytes_sheds (s : State) (m : List Host.Cell) (n : Nat)
    (h : Memory.wf s.memory.bytes = true → Memory.wf m = true) :
    Sheds s { s with memory.bytes := m, freeCount := n } :=
  { Loose.rfl (s := s) with
    lines := id, alarm := id, writes := fun g => ⟨g.1, g.2.1, h g.2.2⟩, driveAway := id }

theorem spoilBlock_sheds (b : Block) (s : State) : Sheds s (spoilBlock b s) :=
  bytes_sheds s _ _ (b.cutShort_wf _ _)

/-- An image fits its block. -/
theorem WriteImage.put_fits (w : WriteImage) : w.put.length ≤ w.block.room := by
  cases w with
  | settings x => exact (Settings.put_length x).trans_le (show 319 ≤ Block.settings.room by decide)
  | posture x => exact (PostureImage.put_length x).trans_le (show 50 ≤ Block.posture.room by decide)

theorem storeImage_sheds (w : WriteImage) (s : State) : Sheds s (storeImage w s) := by
  have h := bytes_sheds s (w.block.write w.put s.memory.bytes) s.freeCount (w.block.write_wf _ _ w.put_fits)
  cases w with
  | settings x => exact h.trans (control_same _ { s.control with settingsDefaulted := false }).sheds
  | posture x => exact h

theorem spoilWrite_sheds (s : State) : Sheds s (spoilWrite s) := by
  unfold spoilWrite; split
  · exact .rfl
  · exact spoilBlock_sheds ..

theorem nextWrite_sheds (s : State) : Sheds s (nextWrite s) := by
  have h : Sheds s { nextWrite s with memory := s.memory } := by
    unfold nextWrite; dsimp only; split
    · exact .rfl
    · next b rest _ => cases b <;> exact .rfl
  exact { h with lines := h.lines, alarm := h.alarm, writes := nextWrite_ordered, driveAway := h.driveAway }

theorem writeDone_sheds (s : State) : Sheds s (writeDone s) := by
  unfold writeDone; split
  · exact .rfl
  · exact (storeImage_sheds ..).trans (nextWrite_sheds _)

theorem abandonWrite_sheds (s : State) : Sheds s (abandonWrite s) := by
  unfold abandonWrite; split
  · exact .rfl
  · refine Sheds.trans (Sheds.trans (drawChoice_same s).sheds ?_) (nextWrite_sheds _)
    exact .ite (spoilBlock_sheds ..) .rfl

theorem losePower_keeps (s : State) : Keeps s (losePower s) := by
  unfold losePower; extract_lets s1 x
  have h : Sheds s s1 := spoilWrite_sheds s
  clear_value s1
  exact h.keeps.trans
    { Keeps.rfl (s := s1) with
      lines := id, alarm := id, driveAway := id, writes := fun g => ⟨List.nodup_nil, fun _ => rfl, g.2.2⟩, supply := id, sessions := id,
      travel := id }

/-! ### Wind -/

theorem wind_same (s : State) (x : WindUnit) : Same s { s with wind := x } :=
  Same.of_eq (s := s) (t := { s with wind := x }) rfl rfl rfl rfl rfl rfl rfl rfl rfl rfl rfl

theorem takeOverOut_keeps (s : State) (a : Awning) : Keeps s (takeOverOut s a) := .ite .rfl (takeOver_keeps ..)

theorem takeOverAll_keeps (s : State) : Keeps s (takeOverAll s) := .foldl takeOverOut_keeps _ s

theorem lockoutAndTakeOver_keeps (starts : Bool) (s : State) : Keeps s (lockoutAndTakeOver starts s) := by
  unfold lockoutAndTakeOver; extract_lets shows
  have h1 := (drawIf_same shows true s).keeps
  revert h1
  cases drawIf shows true s with
  | mk judgeFirst s1 =>
    intro h1; dsimp only
    have h2 := (drawIf_same (shows && !judgeFirst) false s1).keeps
    revert h2
    cases drawIf (shows && !judgeFirst) false s1 with
    | mk judgeSecond s2 =>
      intro h2
      have h := h1.trans h2
      have judged := fun t => (reevaluate_sheds .lockout t).keeps
      exact .ite (h.trans (takeOverAll_keeps s2))
        (.ite ((h.trans (judged s2)).trans (takeOverAll_keeps _))
          (.ite (((h.trans (takeOverOut_keeps s2 0)).trans (judged _)).trans (takeOverOut_keeps _ 1))
            ((h.trans (takeOverAll_keeps s2)).trans (judged _))))

theorem windTripNow_keeps (s : State) : Keeps s (windTripNow s) := by
  unfold windTripNow; extract_lets starts x
  refine Keeps.trans ?_ (lockoutAndTakeOver_keeps ..)
  refine (Sheds.trans ?_ (.ite (wakeUp_sheds _) .rfl)).keeps
  exact ((wind_same s _).sheds.trans (postEvent_sheds ..)).trans (wind_same _ _).sheds

theorem countGust_keeps (v : Nat) (s : State) : Keeps s (countGust v s) := by
  unfold countGust; split
  · extract_lets s1 x
    have h : Same s s1 := .ite (wind_same s _) .rfl
    clear_value s1
    exact .ite (h.keeps.trans (windTripNow_keeps s1)) (h.trans (wind_same s1 _)).keeps
  · exact .ite (wind_same s _).keeps .rfl

theorem windSample_keeps (v : Nat) (s : State) : Keeps s (windSample v s) :=
  .ite (wind_same s _).keeps ((wind_same s _).keeps.trans (countGust_keeps ..))

theorem setWind_same (f : Anemometer → Anemometer) (s : State) : Same s (setWind f s) := same_parts ..

theorem takeWindEdge_keeps (s : State) : Keeps s (takeWindEdge s) := by
  unfold takeWindEdge; split
  · exact (setWind_same ..).keeps
  · exact .ite .rfl (.ite ((setWind_same ..).keeps.trans (windSample_keeps ..)) (setWind_same ..).keeps)

theorem takeNoPulse_keeps (s : State) : Keeps s (takeNoPulse s) := (setWind_same ..).keeps.trans (windSample_keeps ..)

/-! ### Settings -/

theorem sampler_same (s : State) (x : Sampler) : Same s { s with sampler := x } :=
  Same.of_eq (s := s) (t := { s with sampler := x }) rfl rfl rfl rfl rfl rfl rfl rfl rfl rfl rfl

theorem shiftTilt_same (slot : Slot) (by_ : Int) (s : State) : Same s (shiftTilt slot by_ s) :=
  .ite (sampler_same s _) (.ite (sampler_same s _) .rfl)

theorem replaceSettings_same (x : Settings) (s : State) : Same s (replaceSettings x s) := by
  unfold replaceSettings; extract_lets old y s1
  have h : Same s s1 := same_parts ..
  clear_value s1
  exact (h.trans (.ite .rfl (shiftTilt_same ..))).trans (.ite .rfl (shiftTilt_same ..))

theorem writeKey_same (key : SettingKey) (v : Nat) (s : State) : Same s (writeKey key v s).2 :=
  .ite ((replaceSettings_same ..).trans (pushUrgent_same ..)) (replaceSettings_same ..)

theorem judgeWriteSetting_same (l : Link) (number : Word) (value : List Byte) (s : State) :
    Same s (judgeWriteSetting l number value s).2 := by
  unfold judgeWriteSetting; repeat' split
  · exact .rfl
  · exact .rfl
  · exact .rfl
  · exact .rfl
  · exact writeKey_same ..

theorem judgeCaptureLevel_same (l : Link) (s : State) : Same s (judgeCaptureLevel l s).2 := by
  unfold judgeCaptureLevel; repeat' split
  · exact .rfl
  · exact .rfl
  · exact .rfl
  · exact .rfl
  · exact (replaceSettings_same ..).trans (control_same _ _)

/-! ### Sampler -/

theorem frameSlots_same (raw : RawFrame) (s : State) : Same s (frameSlots raw s).2 := sampler_same s _

theorem sensorFault_sheds (slot : Slot) (s : State) : Sheds s (sensorFault slot s) := by
  unfold sensorFault; split
  · exact occur_sheds ..
  · exact .ite (occur_sheds ..) .rfl

theorem frameFaults_sheds (news : FrameNews) (s : State) : Sheds s (frameFaults news s) := by
  unfold frameFaults; extract_lets s1
  have h : Sheds s s1 := .foldl (fun _ _ => .ite (sensorFault_sheds ..) .rfl) _ s
  clear_value s1
  exact .ite (h.trans (occur_sheds ..)) h

theorem handOne_keeps (faults was : Bool) (news : FrameNews) (s : State) : Keeps s (handOne faults was news s) :=
  .ite (frameFaults_sheds ..).keeps (levelFrame_sheds ..).keeps

theorem handFrame_keeps (was : Bool) (news : FrameNews) (s : State) : Keeps s (handFrame was news s) := by
  unfold handFrame; extract_lets busy dwells faults supply
  have hs : ∀ (c : Bool) (t : State), Keeps t (if c then supply t else t) := fun c t => .ite (frameSupply_keeps ..) .rfl
  have h1 := (drawIf_same dwells true s).keeps
  revert h1
  cases drawIf dwells true s with
  | mk supplyFirst s1 =>
    intro h1; dsimp only
    have h2 := (drawIf_same faults true s1).keeps
    revert h2
    cases drawIf faults true s1 with
    | mk faultsFirst s2 =>
      intro h2; dsimp only
      have h3 := (drawIf_same (dwells && faults && !supplyFirst) false s2).keeps
      revert h3
      cases drawIf (dwells && faults && !supplyFirst) false s2 with
      | mk between s3 =>
        intro h3; dsimp only
        have h4 := (((h1.trans h2).trans h3).trans (hs supplyFirst s3)).trans (handOne_keeps faultsFirst was news _)
        have h := (h4.trans (hs between _)).trans (handOne_keeps (!faultsFirst) was news _)
        exact .ite h (h.trans (frameSupply_keeps ..))

theorem completeFrame_keeps (raw : RawFrame) (s : State) : Keeps s (completeFrame raw s) := by
  unfold completeFrame; extract_lets s0
  have h0 : Keeps s s0 := reach_keeps ..
  have h1 := (frameSlots_same raw s0).keeps
  clear_value s0; revert h1
  cases frameSlots raw s0 with
  | mk news s1 =>
    intro h1
    exact ((h0.trans h1).trans (handFrame_keeps ..)).trans (sampler_same _ _).keeps

theorem setSlot_same (slot : Slot) (f : SlotResult → SlotResult) (s : State) : Same s (setSlot slot f s) :=
  sampler_same s _

theorem clearSeed_same (slot : Slot) (s : State) : Same s (clearSeed slot s) :=
  .ite (sampler_same s _) (.ite (sampler_same s _) .rfl)

theorem takeWindowLimit_keeps (slot : Slot) (s : State) : Keeps s (takeWindowLimit slot s) := by
  unfold takeWindowLimit; extract_lets s1 s2
  have h1 : Keeps s s1 := ((setSlot_same ..).trans (clearSeed_same ..)).keeps
  have h2 : Keeps s1 s2 := .ite (frameSupply_keeps ..) .rfl
  clear_value s1 s2
  exact (h1.trans h2).trans ((sensorFault_sheds ..).trans (followAttitude_sheds ..)).keeps

theorem takeExceedance_sheds (slot : Slot) (s : State) : Sheds s (takeExceedance slot s) := by
  unfold takeExceedance; extract_lets s1
  have h : Sheds s s1 := (setSlot_same ..).sheds
  clear_value s1
  exact .ite (h.trans (occur_sheds ..)) (h.trans (levelFrame_sheds ..))

/-! ### Hall inputs -/

theorem slideEdge_sheds (i : Slide) (old : Nat) (s : State) : Sheds s (slideEdge i old s) := by
  unfold slideEdge; extract_lets s1 s2
  have h : Sheds s s1 := .ite .rfl (slideMoved_sheds ..)
  have h2 : Sheds s1 s2 := judgeSlideEdge_sheds ..
  clear_value s1 s2
  split
  · exact (h.trans h2).trans (segmentReport_sheds ..)
  · exact h.trans h2

theorem takeHallEdge_sheds (p : Hall) (s : State) : Sheds s (takeHallEdge p s) := by
  unfold takeHallEdge; split
  · next d _ =>
    unfold countedEdge; extract_lets c s1
    have h : Sheds s s1 := (setHall_same ..).sheds
    clear_value s1 c
    cases c with
    | slide i => exact h.trans (slideEdge_sheds ..)
    | awning a => exact h.trans (awningEdge_sheds ..)
    | jack j => exact h
  · exact strayEdge_sheds ..

/-! ### Links -/

theorem links_same (s : State) (x : Vector LinkRec 4) : Same s { s with links := x } :=
  Same.of_eq (s := s) (t := { s with links := x }) rfl rfl rfl rfl rfl rfl rfl rfl rfl rfl rfl

theorem setLink_same (l : Link) (f : LinkRec → LinkRec) (s : State) : Same s (setLink l f s) := links_same s _

theorem sendReply_same (l : Link) (code : Byte) (rep : Reply) (s : State) : Same s (sendReply l code rep s) :=
  setLink_same ..

theorem requestTimers_same (l : Link) (chassis : Bool) (s : State) : Same s (requestTimers l chassis s) :=
  .ite (restartService_same ..) ((restartService_same ..).trans (restartIdle_same _))

/-- A taken request does what timers, its judgement and the reply do; in LOADING it is not judged. -/
theorem takeRequest_eq (l : Link) (chassis : Bool) (code : Byte) (judge : State → Reply × State) (s : State) :
    ∃ x : Reply × State, (x = (statusReply .notReady, requestTimers l chassis s) ∨ x = judge (requestTimers l chassis s))
      ∧ takeRequest l chassis code judge s = sendReply l code x.1 x.2 := by
  unfold takeRequest; extract_lets s1
  refine ⟨if s1.control.mode = .loading then (statusReply .notReady, s1) else judge s1, ?_, rfl⟩
  split
  · exact .inl rfl
  · exact .inr rfl

/-- A taken request keeps what its judgement keeps. -/
theorem takeRequest_keeps (l : Link) (chassis : Bool) (code : Byte) (judge : State → Reply × State)
    (h : ∀ s, Keeps s (judge s).2) (s : State) : Keeps s (takeRequest l chassis code judge s) := by
  obtain ⟨x, rfl | rfl, e⟩ := takeRequest_eq l chassis code judge s <;> rw [e]
  · exact ((requestTimers_same ..).trans (sendReply_same ..)).keeps
  · exact ((requestTimers_same ..).keeps.trans (h _)).trans (sendReply_same ..).keeps

/-- As `takeRequest_keeps`, but for drive-away. -/
theorem takeRequest_holds (l : Link) (chassis : Bool) (code : Byte) (judge : State → Reply × State)
    (h : ∀ s, Holds s (judge s).2) (s : State) : Holds s (takeRequest l chassis code judge s) := by
  obtain ⟨x, rfl | rfl, e⟩ := takeRequest_eq l chassis code judge s <;> rw [e]
  · exact ((requestTimers_same ..).trans (sendReply_same ..)).keeps.toHolds
  · exact ((requestTimers_same ..).keeps.toHolds.trans (h _)).trans (sendReply_same ..).keeps.toHolds

theorem setFlags_same (l : Link) (f : LinkFlags → LinkFlags) (s : State) : Same s (setFlags l f s) := setLink_same ..

theorem setReceiver_same (l : Link) (x : Receiver) (s : State) : Same s (setReceiver l x s) := setLink_same ..

theorem wakeByte_sheds (l : Link) (s : State) : Sheds s (wakeByte l s) := by
  unfold wakeByte; split
  · exact .rfl
  · exact .rfl
  · exact .ite .rfl ((wakeUp_sheds s).trans (setReceiver_same ..).sheds)

theorem lateByte_same (l : Link) (after : AfterReply) (s : State) : Same s (lateByte l after s) :=
  (setFlags_same ..).trans (setReceiver_same ..)

theorem badByte_same (l : Link) (s : State) : Same s (badByte l s) := by
  unfold badByte; split
  · exact (setFlags_same ..).trans (setReceiver_same ..)
  · exact .rfl
  · exact (setFlags_same ..).trans (setReceiver_same ..)

/-- A request row keeps what its judgement keeps. -/
theorem requestRow_keeps (l : Link) (chassis : Bool) (code : Byte) (judge : State → Reply × State)
    (h : ∀ s, Keeps s (judge s).2) (s : State) : Keeps s (requestRow l chassis code judge s) := by
  unfold requestRow; repeat' split
  · exact (wakeByte_sheds ..).keeps
  · exact (lateByte_same ..).keeps
  · exact .rfl
  · exact (setReceiver_same ..).keeps
  · exact takeRequest_keeps l chassis code judge h s

/-- As `requestRow_keeps`, but for drive-away. -/
theorem requestRow_holds (l : Link) (chassis : Bool) (code : Byte) (judge : State → Reply × State)
    (h : ∀ s, Holds s (judge s).2) (s : State) : Holds s (requestRow l chassis code judge s) := by
  unfold requestRow; repeat' split
  · exact (wakeByte_sheds ..).keeps.toHolds
  · exact (lateByte_same ..).keeps.toHolds
  · exact Keeps.rfl.toHolds
  · exact (setReceiver_same ..).keeps.toHolds
  · exact takeRequest_holds l chassis code judge h s

theorem afterReply_sheds (after : AfterReply) (s : State) : Sheds s (afterReply after s) := by
  cases after
  · exact .rfl
  · exact .ite (enterSleep_sheds s) .rfl
  · exact beginFullReset_sheds s

theorem replyEnd_sheds (l : Link) (only : AfterReply → Bool) (s : State) : Sheds s (replyEnd l only s) := by
  unfold replyEnd; split
  · exact .ite ((setReceiver_same ..).sheds.trans (afterReply_sheds ..)) .rfl
  · exact .ite ((setReceiver_same ..).sheds.trans (afterReply_sheds ..)) .rfl
  · exact .rfl

/-! ### Requests -/

theorem judgeKeep_same (l : Link) (s : State) : Same s (judgeKeep l s).2 := (keepSessions_same ..).trans (keepRun_same ..)

theorem judgeStop_sheds (scope : StopScope) (s : State) : Sheds s (judgeStop scope s).2 := by
  cases scope
  · exact stopChannel_sheds ..
  · exact (forceEndAll_sheds ..).trans (suspend_sheds ..)

theorem judgeSetLevelTarget_same (l : Link) (p r : Word) (s : State) : Same s (judgeSetLevelTarget l p r s).2 := by
  unfold judgeSetLevelTarget; repeat' split
  · exact .rfl
  · exact .rfl
  · exact same_parts ..

/-- One box is judged again: the lines still agree. -/
theorem setBox_sheds (l : Link) (f : EventBox → EventBox)
    (hf : ∀ b, (f b).line = (((f b).pending &&& (f b).enable) != 0)) (s : State) : Sheds s (setBox l f s) := by
  refine
    { Loose.rfl (s := s) with
      lines := fun g => ?_, alarm := id, writes := id, driveAway := id }
  intro k
  by_cases h : l.val = k.val
  · simp [setBox, h, hf]
  · have := g k
    simpa [setBox, h] using this

theorem judgeReadEvents_sheds (l : Link) (s : State) : Sheds s (judgeReadEvents l s).2 := setBox_sheds _ _ (by intro; rfl) s

theorem judgeSetEventEnable_sheds (l : Link) (set : Word) (s : State) : Sheds s (judgeSetEventEnable l set s).2 :=
  setBox_sheds _ _ (by intro; rfl) s

theorem seeFaults_same (l : Link) (s : State) : Same s (seeFaults l s) := by
  refine ⟨rfl, rfl, rfl, rfl, rfl, rfl, rfl, rfl, fun c => ?_⟩
  cases c <;> simp [isStowed, seeFaults]

theorem judgeClearFault_same (l : Link) (h : FaultHolder) (s : State) : Same s (judgeClearFault l h s).2 := by
  unfold judgeClearFault; repeat' split
  · exact .rfl
  · exact .rfl
  · exact setFault_same ..
  · exact .rfl

theorem judgeChassisStatus_keeps (l : Link) (ignition brake gear : Byte) (speed : Word) (engine : Byte) (s : State) :
    Keeps s (judgeChassisStatus l ignition brake gear speed engine s).2 := by
  unfold judgeChassisStatus; repeat' split
  · exact .rfl
  · exact .rfl
  · exact takeChassis_keeps ..

theorem judgeSleep_state (l : Link) (s : State) : (judgeSleep l s).2 = s := by
  unfold judgeSleep; repeat' split
  all_goals rfl

theorem judgeServiceEnter_sheds (l : Link) (s : State) : Sheds s (judgeServiceEnter l s).2 := by
  unfold judgeServiceEnter; repeat' split
  · exact .rfl
  · exact enterService_sheds ..
  · exact .rfl

theorem judgeServiceExit_sheds (l : Link) (s : State) : Sheds s (judgeServiceExit l s).2 := by
  unfold judgeServiceExit; repeat' split
  · exact .rfl
  · exact .rfl
  · exact exitService_sheds s

theorem judgeMotionReset_loose (l : Link) (s : State) : Loose s (judgeMotionReset l s).2 := by
  unfold judgeMotionReset; repeat' split
  · exact .rfl
  · exact .rfl
  · exact motionResetNow_loose s

theorem judgeFullReset_state (l : Link) (s : State) : (judgeFullReset l s).2 = s := by
  unfold judgeFullReset; repeat' split
  all_goals rfl

theorem judgeReadPosture_same (l : Link) (page : Page) (s : State) : Same s (judgeReadPosture l page s).2 := by
  unfold judgeReadPosture; repeat' split
  all_goals first | exact .rfl | exact setLink_same ..

theorem judgeReadLinkStatus_same (l : Link) (s : State) : Same s (judgeReadLinkStatus l s).2 := setLink_same ..

/-! ### Carrying an event to its end -/

theorem finish_keeps (s : State) : Keeps s (finish s) :=
  ((settle_keeps ..).trans (wakeReturn_sheds _).keeps).trans (judgeIdle_same _).keeps

theorem event_keeps (f : State → State) (h : ∀ s, Keeps s (f s)) (s : State) : Keeps s (event f s) :=
  .ite ((h s).trans (finish_keeps _)) .rfl

/-- As `event_keeps`, but for drive-away. -/
theorem event_holds (f : State → State) (h : ∀ s, Holds s (f s)) (s : State) : Holds s (event f s) := by
  unfold event; split
  · exact (h s).trans (finish_keeps _).toHolds
  · exact .rfl

theorem timed_keeps (due : State → Option Nat) (f : State → State) (h : ∀ s, Keeps s (f s)) (s : State) :
    Keeps s (timed due f s) := by
  refine event_keeps _ (fun s => ?_) s
  split
  · exact (reach_keeps ..).trans (h _)
  · exact .rfl

theorem guarded_keeps (holds : State → Bool) (f : State → State) (h : ∀ s, Keeps s (f s)) (s : State) :
    Keeps s (guarded holds f s) := event_keeps _ (fun _ => .ite (h _) .rfl) s

/-! ### With no work left, an event ends at once -/

theorem settle_none (n : Nat) (s : State) (h : s.work = {}) : settle n s = s := by
  cases n with
  | zero => rfl
  | succ n => unfold settle; rw [h]

/-- An event that hands nothing on. -/
theorem finish_none (s : State) (h : s.work = {}) (hw : s.control.wake = none) : finish s = judgeIdle s := by
  unfold finish; rw [settle_none _ _ h]; unfold wakeReturn; rw [hw]

/-- A request that a quiet part hears is judged and answered. -/
theorem requestRow_heard {l : Link} {s : State} (h : Hears l s) (chassis : Bool) (code : Byte)
    (judge : State → Reply × State) :
    requestRow l chassis code judge s
      = sendReply l code (judge (requestTimers l chassis s)).1 (judge (requestTimers l chassis s)).2 := by
  have hm : (requestTimers l chassis s).control.mode = s.control.mode := by
    unfold requestTimers restartService restartIdle; dsimp only; repeat' split
    all_goals rfl
  have hs : s.control.mode ≠ .sleep ∧ s.control.mode ≠ .loading := by
    rcases h.2.1 with h | h <;> simp [h]
  unfold requestRow
  rw [if_neg hs.1]
  have ht : takeRequest l chassis code judge s
      = sendReply l code (judge (requestTimers l chassis s)).1 (judge (requestTimers l chassis s)).2 := by
    unfold takeRequest; dsimp only; rw [hm, if_neg hs.2]
  rcases h.2.2 with hr | ⟨taken, hr⟩ <;> rw [hr] <;> exact ht

end Sys2Proof.Machine
end

