-- ==== Sys2Proof/Laws/Answers.lean ====
section
/-! SUPPORT. How requests and other events end: with nothing handed on, a request is answered and another event leaves
the part as its block left it; a part at rest has nothing to do with the work an event hands on. -/

namespace Sys2Proof.Machine

/-! ### The idle timer -/

/-- A part whose idle timer agrees with its conditions is left alone. -/
theorem judgeIdle_of_agrees {s : State} (h : s.control.idleDue.isSome = idleHolds s) : judgeIdle s = s := by
  unfold judgeIdle
  split
  · next hh => rw [if_pos (h.trans hh)]
  · next hh =>
    have : s.control.idleDue = none := by
      cases hd : s.control.idleDue with
      | none => rfl
      | some _ => rw [hd] at h; exact absurd h.symm hh
    rw [← this]

/-- A wake window that has not run out does not return the part to Sleep. -/
theorem wakeReturn_open {s : State} (h : ∀ w, s.control.wake = some w → w.expired = false) : wakeReturn s = s := by
  unfold wakeReturn
  split
  · next w hw => simp [h w hw]
  · rfl

/-- An event that hands nothing on and leaves the idle timer in agreement ends where its block left it. -/
theorem finish_settled {s : State} (h : Settled s) : finish s = s := by
  obtain ⟨⟨-, hw⟩, hi, ho⟩ := h
  unfold finish
  rw [settle_none _ _ hw, wakeReturn_open ho, judgeIdle_of_agrees hi]

/-- An event of a powered part that its block leaves settled. -/
theorem event_settled {f : State → State} {s : State} (hp : s.powered = true) (h : Settled (f s)) : event f s = f s := by
  unfold event; rw [if_pos hp, finish_settled h]

/-! ### Requests -/

/-- What a request other than CHASSIS_STATUS does to the Mode Controller before it is judged. -/
theorem requestTimers_eq (l : Link) (s : State) :
    requestTimers l false s = { s with control := { s.control with
      serviceDue := if s.control.mode = .service ∧ s.control.serviceOwner = some l
        then some (s.now + Config.serviceTime) else s.control.serviceDue
      idleDue := s.control.idleDue.map fun _ => s.now + Config.idleTime
      wakeFrameMark := s.control.wakeFrameMark || s.control.wake.isSome
      wake := none } } := by
  unfold requestTimers restartIdle restartService
  split <;> rfl

/-- The timers of a request, then the idle timer's judgement, leave the Mode Controller as `heardControl` says. -/
theorem judgeIdle_heard (l : Link) (code : Byte) (rep : Reply) (s : State) :
    judgeIdle (sendReply l code rep (requestTimers l false s)) = answered l code rep s := by
  have hi : idleHolds (sendReply l code rep (requestTimers l false s)) = idleHolds s := by
    rw [requestTimers_eq]; rfl
  unfold judgeIdle answered heardControl
  rw [hi, requestTimers_eq]
  split
  · cases s.control.idleDue <;> rfl
  · rfl

/-- A request that hands nothing on: what its block makes of the state, once the reply is built, is answered. -/
theorem request_answered {l : Link} {s u : State} (h : Hears l s) {code : Byte} {rep : Reply}
    {judge : State → Reply × State} (hj : judge (requestTimers l false s) = (rep, requestTimers l false u))
    (hw : u.work = {}) : event (requestRow l false code judge) s = answered l code rep u := by
  unfold event
  rw [if_pos h.1.1, requestRow_heard h, hj]
  dsimp only
  rw [finish_none, judgeIdle_heard]
  · rw [requestTimers_eq]; exact hw
  · rw [requestTimers_eq]; rfl

/-- The same for a block that leaves the clock and the Mode Controller alone: it may be judged with any timers. -/
theorem request_plain {l : Link} {s u : State} (h : Hears l s) {code : Byte} {rep : Reply}
    {judge : State → Reply × State} (hn : u.now = s.now) (hc : u.control = s.control) (hw : u.work = {})
    (hj : ∀ m : ModeUnit, m.mode = s.control.mode → m.serviceOwner = s.control.serviceOwner →
      m.settingsChanged = s.control.settingsChanged → m.settingsDefaulted = s.control.settingsDefaulted →
      judge { s with control := m } = (rep, { u with control := m })) :
    event (requestRow l false code judge) s = answered l code rep u := by
  refine request_answered h ?_ hw
  rw [requestTimers_eq, requestTimers_eq, hc]
  have := hj { s.control with
    serviceDue := if s.control.mode = .service ∧ s.control.serviceOwner = some l
      then some (s.now + Config.serviceTime) else s.control.serviceDue
    idleDue := s.control.idleDue.map fun _ => s.now + Config.idleTime
    wakeFrameMark := s.control.wakeFrameMark || s.control.wake.isSome
    wake := none } rfl rfl rfl rfl
  rw [this, hn]

/-- The same where work is handed on, and taking it leaves a state that owes nothing. -/
theorem request_settles {l : Link} {s u v : State} (h : Hears l s) {code : Byte} {rep : Reply}
    {judge : State → Reply × State} (hj : judge (requestTimers l false s) = (rep, v))
    (hs : settle Config.workBound (sendReply l code rep v) = sendReply l code rep (requestTimers l false u)) :
    event (requestRow l false code judge) s = answered l code rep u := by
  unfold event
  rw [if_pos h.1.1, requestRow_heard h, hj]
  dsimp only
  unfold finish
  rw [hs]
  have : wakeReturn (sendReply l code rep (requestTimers l false u)) = sendReply l code rep (requestTimers l false u) :=
    wakeReturn_open (by rw [requestTimers_eq]; rintro w ⟨⟩)
  rw [this, judgeIdle_heard]

/-! ### Work at rest -/

/-- What a part at rest is left with when it takes a piece of work: nothing has changed. -/
theorem runTask_atRest {s : State} (h : AtRest s) (t : Task) : runTask t s = s := by
  obtain ⟨hs, ha, hq, hr, hd⟩ := h
  cases t with
  | reevaluate ch => simp [runTask, reevaluate, hs]
  | zeroReached k => simp [runTask, finishStopping, sessionAt, hs]
  | examineHead => simp [runTask, examineHead, examineHeads, hq]
  | stepEnded k code outcome => simp [runTask, stepEnded, hr]
  | stepGranted k => simp [runTask, stepGranted, hr]
  | advance => simp [runTask, advance, hr]
  | relevel => simp [runTask, judgeRelevel, hd]

theorem AtRest.withWork {s : State} (h : AtRest s) (w : Work) : AtRest { s with work := w } := h

/-- A part at rest takes all its work, and only the work is gone. -/
theorem settle_atRest (n : Nat) (s : State) (h : AtRest s) (hn : s.work.urgent.length + s.work.later.length ≤ n) :
    settle n s = { s with work := {} } := by
  induction n generalizing s with
  | zero =>
    have hu : s.work.urgent = [] := List.length_eq_zero_iff.mp (by omega)
    have hl : s.work.later = [] := List.length_eq_zero_iff.mp (by omega)
    have : s.work = {} := by rw [show s.work = ⟨s.work.urgent, s.work.later⟩ from rfl, hu, hl]
    unfold settle; rw [← this]
  | succ n ih =>
    unfold settle
    split
    · next t rest hu =>
      rw [runTask_atRest (h.withWork _), ih _ (h.withWork _)]
      simp only [hu, List.length_cons] at hn; simpa using by omega
    · next hu =>
      split
      · next t rest hl =>
        rw [runTask_atRest (h.withWork _), ih _ (h.withWork _)]
        simp only [hu, hl, List.length_cons] at hn; simp [hu]; simpa using hn
      · next hl =>
        have : s.work = {} := by rw [show s.work = ⟨s.work.urgent, s.work.later⟩ from rfl, hu, hl]
        rw [← this]

end Sys2Proof.Machine
end

