-- ==== Sys2Proof/Laws/State.lean ====
section
/-! SUPPORT. What each setter does to each field of the state, one lemma a field, so that no proof unfolds a record
update. -/

namespace Sys2Proof.Machine

/-! ### setOutput -/

@[simp] theorem setOutput_now (o : Output) (f : DriveOutput → DriveOutput) (s : State) :
    (setOutput o f s).now = s.now := rfl
@[simp] theorem setOutput_powered (o : Output) (f : DriveOutput → DriveOutput) (s : State) :
    (setOutput o f s).powered = s.powered := rfl
@[simp] theorem setOutput_control (o : Output) (f : DriveOutput → DriveOutput) (s : State) :
    (setOutput o f s).control = s.control := rfl
@[simp] theorem setOutput_settings (o : Output) (f : DriveOutput → DriveOutput) (s : State) :
    (setOutput o f s).settings = s.settings := rfl
@[simp] theorem setOutput_links (o : Output) (f : DriveOutput → DriveOutput) (s : State) :
    (setOutput o f s).links = s.links := rfl
@[simp] theorem setOutput_events (o : Output) (f : DriveOutput → DriveOutput) (s : State) :
    (setOutput o f s).events = s.events := rfl
@[simp] theorem setOutput_sampler (o : Output) (f : DriveOutput → DriveOutput) (s : State) :
    (setOutput o f s).sampler = s.sampler := rfl
@[simp] theorem setOutput_drive (o : Output) (f : DriveOutput → DriveOutput) (s : State) :
    (setOutput o f s).drive = upd s.drive o f := rfl
@[simp] theorem setOutput_pulse (o : Output) (f : DriveOutput → DriveOutput) (s : State) :
    (setOutput o f s).pulse = s.pulse := rfl
@[simp] theorem setOutput_sessions (o : Output) (f : DriveOutput → DriveOutput) (s : State) :
    (setOutput o f s).sessions = s.sessions := rfl
@[simp] theorem setOutput_jacks (o : Output) (f : DriveOutput → DriveOutput) (s : State) :
    (setOutput o f s).jacks = s.jacks := rfl
@[simp] theorem setOutput_slides (o : Output) (f : DriveOutput → DriveOutput) (s : State) :
    (setOutput o f s).slides = s.slides := rfl
@[simp] theorem setOutput_awnings (o : Output) (f : DriveOutput → DriveOutput) (s : State) :
    (setOutput o f s).awnings = s.awnings := rfl
@[simp] theorem setOutput_pumpFault (o : Output) (f : DriveOutput → DriveOutput) (s : State) :
    (setOutput o f s).pumpFault = s.pumpFault := rfl
@[simp] theorem setOutput_interlock (o : Output) (f : DriveOutput → DriveOutput) (s : State) :
    (setOutput o f s).interlock = s.interlock := rfl
@[simp] theorem setOutput_supply (o : Output) (f : DriveOutput → DriveOutput) (s : State) :
    (setOutput o f s).supply = s.supply := rfl
@[simp] theorem setOutput_level (o : Output) (f : DriveOutput → DriveOutput) (s : State) :
    (setOutput o f s).level = s.level := rfl
@[simp] theorem setOutput_program (o : Output) (f : DriveOutput → DriveOutput) (s : State) :
    (setOutput o f s).program = s.program := rfl
@[simp] theorem setOutput_wind (o : Output) (f : DriveOutput → DriveOutput) (s : State) :
    (setOutput o f s).wind = s.wind := rfl
@[simp] theorem setOutput_memory (o : Output) (f : DriveOutput → DriveOutput) (s : State) :
    (setOutput o f s).memory = s.memory := rfl
@[simp] theorem setOutput_freeCount (o : Output) (f : DriveOutput → DriveOutput) (s : State) :
    (setOutput o f s).freeCount = s.freeCount := rfl
@[simp] theorem setOutput_work (o : Output) (f : DriveOutput → DriveOutput) (s : State) :
    (setOutput o f s).work = s.work := rfl
@[simp] theorem setOutput_pending (o : Output) (f : DriveOutput → DriveOutput) (s : State) :
    (setOutput o f s).pending = s.pending := rfl

/-! ### setHall -/

@[simp] theorem setHall_now (p : Hall) (f : HallInput → HallInput) (s : State) : (setHall p f s).now = s.now := rfl
@[simp] theorem setHall_powered (p : Hall) (f : HallInput → HallInput) (s : State) :
    (setHall p f s).powered = s.powered := rfl
@[simp] theorem setHall_control (p : Hall) (f : HallInput → HallInput) (s : State) :
    (setHall p f s).control = s.control := rfl
@[simp] theorem setHall_settings (p : Hall) (f : HallInput → HallInput) (s : State) :
    (setHall p f s).settings = s.settings := rfl
@[simp] theorem setHall_links (p : Hall) (f : HallInput → HallInput) (s : State) :
    (setHall p f s).links = s.links := rfl
@[simp] theorem setHall_events (p : Hall) (f : HallInput → HallInput) (s : State) :
    (setHall p f s).events = s.events := rfl
@[simp] theorem setHall_sampler (p : Hall) (f : HallInput → HallInput) (s : State) :
    (setHall p f s).sampler = s.sampler := rfl
@[simp] theorem setHall_drive (p : Hall) (f : HallInput → HallInput) (s : State) :
    (setHall p f s).drive = s.drive := rfl
@[simp] theorem setHall_pulse (p : Hall) (f : HallInput → HallInput) (s : State) :
    (setHall p f s).pulse = { s.pulse with inputs := upd s.pulse.inputs p f } := rfl
@[simp] theorem setHall_sessions (p : Hall) (f : HallInput → HallInput) (s : State) :
    (setHall p f s).sessions = s.sessions := rfl
@[simp] theorem setHall_jacks (p : Hall) (f : HallInput → HallInput) (s : State) :
    (setHall p f s).jacks = s.jacks := rfl
@[simp] theorem setHall_slides (p : Hall) (f : HallInput → HallInput) (s : State) :
    (setHall p f s).slides = s.slides := rfl
@[simp] theorem setHall_awnings (p : Hall) (f : HallInput → HallInput) (s : State) :
    (setHall p f s).awnings = s.awnings := rfl
@[simp] theorem setHall_pumpFault (p : Hall) (f : HallInput → HallInput) (s : State) :
    (setHall p f s).pumpFault = s.pumpFault := rfl
@[simp] theorem setHall_interlock (p : Hall) (f : HallInput → HallInput) (s : State) :
    (setHall p f s).interlock = s.interlock := rfl
@[simp] theorem setHall_supply (p : Hall) (f : HallInput → HallInput) (s : State) :
    (setHall p f s).supply = s.supply := rfl
@[simp] theorem setHall_level (p : Hall) (f : HallInput → HallInput) (s : State) :
    (setHall p f s).level = s.level := rfl
@[simp] theorem setHall_program (p : Hall) (f : HallInput → HallInput) (s : State) :
    (setHall p f s).program = s.program := rfl
@[simp] theorem setHall_wind (p : Hall) (f : HallInput → HallInput) (s : State) : (setHall p f s).wind = s.wind := rfl
@[simp] theorem setHall_memory (p : Hall) (f : HallInput → HallInput) (s : State) :
    (setHall p f s).memory = s.memory := rfl
@[simp] theorem setHall_freeCount (p : Hall) (f : HallInput → HallInput) (s : State) :
    (setHall p f s).freeCount = s.freeCount := rfl
@[simp] theorem setHall_work (p : Hall) (f : HallInput → HallInput) (s : State) : (setHall p f s).work = s.work := rfl
@[simp] theorem setHall_pending (p : Hall) (f : HallInput → HallInput) (s : State) :
    (setHall p f s).pending = s.pending := rfl

/-! ### updSlide -/

@[simp] theorem updSlide_now (i : Slide) (f : SlideEntry → SlideEntry) (s : State) :
    (updSlide i f s).now = s.now := rfl
@[simp] theorem updSlide_powered (i : Slide) (f : SlideEntry → SlideEntry) (s : State) :
    (updSlide i f s).powered = s.powered := rfl
@[simp] theorem updSlide_control (i : Slide) (f : SlideEntry → SlideEntry) (s : State) :
    (updSlide i f s).control = s.control := rfl
@[simp] theorem updSlide_settings (i : Slide) (f : SlideEntry → SlideEntry) (s : State) :
    (updSlide i f s).settings = s.settings := rfl
@[simp] theorem updSlide_links (i : Slide) (f : SlideEntry → SlideEntry) (s : State) :
    (updSlide i f s).links = s.links := rfl
@[simp] theorem updSlide_events (i : Slide) (f : SlideEntry → SlideEntry) (s : State) :
    (updSlide i f s).events = s.events := rfl
@[simp] theorem updSlide_sampler (i : Slide) (f : SlideEntry → SlideEntry) (s : State) :
    (updSlide i f s).sampler = s.sampler := rfl
@[simp] theorem updSlide_drive (i : Slide) (f : SlideEntry → SlideEntry) (s : State) :
    (updSlide i f s).drive = s.drive := rfl
@[simp] theorem updSlide_pulse (i : Slide) (f : SlideEntry → SlideEntry) (s : State) :
    (updSlide i f s).pulse = s.pulse := rfl
@[simp] theorem updSlide_sessions (i : Slide) (f : SlideEntry → SlideEntry) (s : State) :
    (updSlide i f s).sessions = s.sessions := rfl
@[simp] theorem updSlide_jacks (i : Slide) (f : SlideEntry → SlideEntry) (s : State) :
    (updSlide i f s).jacks = s.jacks := rfl
@[simp] theorem updSlide_slides (i : Slide) (f : SlideEntry → SlideEntry) (s : State) :
    (updSlide i f s).slides = upd s.slides i f := rfl
@[simp] theorem updSlide_awnings (i : Slide) (f : SlideEntry → SlideEntry) (s : State) :
    (updSlide i f s).awnings = s.awnings := rfl
@[simp] theorem updSlide_pumpFault (i : Slide) (f : SlideEntry → SlideEntry) (s : State) :
    (updSlide i f s).pumpFault = s.pumpFault := rfl
@[simp] theorem updSlide_interlock (i : Slide) (f : SlideEntry → SlideEntry) (s : State) :
    (updSlide i f s).interlock = s.interlock := rfl
@[simp] theorem updSlide_supply (i : Slide) (f : SlideEntry → SlideEntry) (s : State) :
    (updSlide i f s).supply = s.supply := rfl
@[simp] theorem updSlide_level (i : Slide) (f : SlideEntry → SlideEntry) (s : State) :
    (updSlide i f s).level = s.level := rfl
@[simp] theorem updSlide_program (i : Slide) (f : SlideEntry → SlideEntry) (s : State) :
    (updSlide i f s).program = s.program := rfl
@[simp] theorem updSlide_wind (i : Slide) (f : SlideEntry → SlideEntry) (s : State) :
    (updSlide i f s).wind = s.wind := rfl
@[simp] theorem updSlide_memory (i : Slide) (f : SlideEntry → SlideEntry) (s : State) :
    (updSlide i f s).memory = s.memory := rfl
@[simp] theorem updSlide_freeCount (i : Slide) (f : SlideEntry → SlideEntry) (s : State) :
    (updSlide i f s).freeCount = s.freeCount := rfl
@[simp] theorem updSlide_work (i : Slide) (f : SlideEntry → SlideEntry) (s : State) :
    (updSlide i f s).work = s.work := rfl
@[simp] theorem updSlide_pending (i : Slide) (f : SlideEntry → SlideEntry) (s : State) :
    (updSlide i f s).pending = s.pending := rfl

/-! ### updAwning -/

@[simp] theorem updAwning_now (a : Awning) (f : AwningEntry → AwningEntry) (s : State) :
    (updAwning a f s).now = s.now := rfl
@[simp] theorem updAwning_powered (a : Awning) (f : AwningEntry → AwningEntry) (s : State) :
    (updAwning a f s).powered = s.powered := rfl
@[simp] theorem updAwning_control (a : Awning) (f : AwningEntry → AwningEntry) (s : State) :
    (updAwning a f s).control = s.control := rfl
@[simp] theorem updAwning_settings (a : Awning) (f : AwningEntry → AwningEntry) (s : State) :
    (updAwning a f s).settings = s.settings := rfl
@[simp] theorem updAwning_links (a : Awning) (f : AwningEntry → AwningEntry) (s : State) :
    (updAwning a f s).links = s.links := rfl
@[simp] theorem updAwning_events (a : Awning) (f : AwningEntry → AwningEntry) (s : State) :
    (updAwning a f s).events = s.events := rfl
@[simp] theorem updAwning_sampler (a : Awning) (f : AwningEntry → AwningEntry) (s : State) :
    (updAwning a f s).sampler = s.sampler := rfl
@[simp] theorem updAwning_drive (a : Awning) (f : AwningEntry → AwningEntry) (s : State) :
    (updAwning a f s).drive = s.drive := rfl
@[simp] theorem updAwning_pulse (a : Awning) (f : AwningEntry → AwningEntry) (s : State) :
    (updAwning a f s).pulse = s.pulse := rfl
@[simp] theorem updAwning_sessions (a : Awning) (f : AwningEntry → AwningEntry) (s : State) :
    (updAwning a f s).sessions = s.sessions := rfl
@[simp] theorem updAwning_jacks (a : Awning) (f : AwningEntry → AwningEntry) (s : State) :
    (updAwning a f s).jacks = s.jacks := rfl
@[simp] theorem updAwning_slides (a : Awning) (f : AwningEntry → AwningEntry) (s : State) :
    (updAwning a f s).slides = s.slides := rfl
@[simp] theorem updAwning_awnings (a : Awning) (f : AwningEntry → AwningEntry) (s : State) :
    (updAwning a f s).awnings = upd s.awnings a f := rfl
@[simp] theorem updAwning_pumpFault (a : Awning) (f : AwningEntry → AwningEntry) (s : State) :
    (updAwning a f s).pumpFault = s.pumpFault := rfl
@[simp] theorem updAwning_interlock (a : Awning) (f : AwningEntry → AwningEntry) (s : State) :
    (updAwning a f s).interlock = s.interlock := rfl
@[simp] theorem updAwning_supply (a : Awning) (f : AwningEntry → AwningEntry) (s : State) :
    (updAwning a f s).supply = s.supply := rfl
@[simp] theorem updAwning_level (a : Awning) (f : AwningEntry → AwningEntry) (s : State) :
    (updAwning a f s).level = s.level := rfl
@[simp] theorem updAwning_program (a : Awning) (f : AwningEntry → AwningEntry) (s : State) :
    (updAwning a f s).program = s.program := rfl
@[simp] theorem updAwning_wind (a : Awning) (f : AwningEntry → AwningEntry) (s : State) :
    (updAwning a f s).wind = s.wind := rfl
@[simp] theorem updAwning_memory (a : Awning) (f : AwningEntry → AwningEntry) (s : State) :
    (updAwning a f s).memory = s.memory := rfl
@[simp] theorem updAwning_freeCount (a : Awning) (f : AwningEntry → AwningEntry) (s : State) :
    (updAwning a f s).freeCount = s.freeCount := rfl
@[simp] theorem updAwning_work (a : Awning) (f : AwningEntry → AwningEntry) (s : State) :
    (updAwning a f s).work = s.work := rfl
@[simp] theorem updAwning_pending (a : Awning) (f : AwningEntry → AwningEntry) (s : State) :
    (updAwning a f s).pending = s.pending := rfl

/-! ### setLink -/

@[simp] theorem setLink_now (l : Link) (f : LinkRec → LinkRec) (s : State) : (setLink l f s).now = s.now := rfl
@[simp] theorem setLink_powered (l : Link) (f : LinkRec → LinkRec) (s : State) :
    (setLink l f s).powered = s.powered := rfl
@[simp] theorem setLink_control (l : Link) (f : LinkRec → LinkRec) (s : State) :
    (setLink l f s).control = s.control := rfl
@[simp] theorem setLink_settings (l : Link) (f : LinkRec → LinkRec) (s : State) :
    (setLink l f s).settings = s.settings := rfl
@[simp] theorem setLink_links (l : Link) (f : LinkRec → LinkRec) (s : State) :
    (setLink l f s).links = upd s.links l f := rfl
@[simp] theorem setLink_events (l : Link) (f : LinkRec → LinkRec) (s : State) :
    (setLink l f s).events = s.events := rfl
@[simp] theorem setLink_sampler (l : Link) (f : LinkRec → LinkRec) (s : State) :
    (setLink l f s).sampler = s.sampler := rfl
@[simp] theorem setLink_drive (l : Link) (f : LinkRec → LinkRec) (s : State) : (setLink l f s).drive = s.drive := rfl
@[simp] theorem setLink_pulse (l : Link) (f : LinkRec → LinkRec) (s : State) : (setLink l f s).pulse = s.pulse := rfl
@[simp] theorem setLink_sessions (l : Link) (f : LinkRec → LinkRec) (s : State) :
    (setLink l f s).sessions = s.sessions := rfl
@[simp] theorem setLink_jacks (l : Link) (f : LinkRec → LinkRec) (s : State) : (setLink l f s).jacks = s.jacks := rfl
@[simp] theorem setLink_slides (l : Link) (f : LinkRec → LinkRec) (s : State) :
    (setLink l f s).slides = s.slides := rfl
@[simp] theorem setLink_awnings (l : Link) (f : LinkRec → LinkRec) (s : State) :
    (setLink l f s).awnings = s.awnings := rfl
@[simp] theorem setLink_pumpFault (l : Link) (f : LinkRec → LinkRec) (s : State) :
    (setLink l f s).pumpFault = s.pumpFault := rfl
@[simp] theorem setLink_interlock (l : Link) (f : LinkRec → LinkRec) (s : State) :
    (setLink l f s).interlock = s.interlock := rfl
@[simp] theorem setLink_supply (l : Link) (f : LinkRec → LinkRec) (s : State) :
    (setLink l f s).supply = s.supply := rfl
@[simp] theorem setLink_level (l : Link) (f : LinkRec → LinkRec) (s : State) : (setLink l f s).level = s.level := rfl
@[simp] theorem setLink_program (l : Link) (f : LinkRec → LinkRec) (s : State) :
    (setLink l f s).program = s.program := rfl
@[simp] theorem setLink_wind (l : Link) (f : LinkRec → LinkRec) (s : State) : (setLink l f s).wind = s.wind := rfl
@[simp] theorem setLink_memory (l : Link) (f : LinkRec → LinkRec) (s : State) :
    (setLink l f s).memory = s.memory := rfl
@[simp] theorem setLink_freeCount (l : Link) (f : LinkRec → LinkRec) (s : State) :
    (setLink l f s).freeCount = s.freeCount := rfl
@[simp] theorem setLink_work (l : Link) (f : LinkRec → LinkRec) (s : State) : (setLink l f s).work = s.work := rfl
@[simp] theorem setLink_pending (l : Link) (f : LinkRec → LinkRec) (s : State) :
    (setLink l f s).pending = s.pending := rfl

/-! ### setReceiver -/

@[simp] theorem setReceiver_now (l : Link) (x : Receiver) (s : State) : (setReceiver l x s).now = s.now := rfl
@[simp] theorem setReceiver_powered (l : Link) (x : Receiver) (s : State) :
    (setReceiver l x s).powered = s.powered := rfl
@[simp] theorem setReceiver_control (l : Link) (x : Receiver) (s : State) :
    (setReceiver l x s).control = s.control := rfl
@[simp] theorem setReceiver_settings (l : Link) (x : Receiver) (s : State) :
    (setReceiver l x s).settings = s.settings := rfl
@[simp] theorem setReceiver_links (l : Link) (x : Receiver) (s : State) :
    (setReceiver l x s).links = upd s.links l fun r => { r with receiver := x, lastByteAt := s.now } := rfl
@[simp] theorem setReceiver_events (l : Link) (x : Receiver) (s : State) :
    (setReceiver l x s).events = s.events := rfl
@[simp] theorem setReceiver_sampler (l : Link) (x : Receiver) (s : State) :
    (setReceiver l x s).sampler = s.sampler := rfl
@[simp] theorem setReceiver_drive (l : Link) (x : Receiver) (s : State) : (setReceiver l x s).drive = s.drive := rfl
@[simp] theorem setReceiver_pulse (l : Link) (x : Receiver) (s : State) : (setReceiver l x s).pulse = s.pulse := rfl
@[simp] theorem setReceiver_sessions (l : Link) (x : Receiver) (s : State) :
    (setReceiver l x s).sessions = s.sessions := rfl
@[simp] theorem setReceiver_jacks (l : Link) (x : Receiver) (s : State) : (setReceiver l x s).jacks = s.jacks := rfl
@[simp] theorem setReceiver_slides (l : Link) (x : Receiver) (s : State) :
    (setReceiver l x s).slides = s.slides := rfl
@[simp] theorem setReceiver_awnings (l : Link) (x : Receiver) (s : State) :
    (setReceiver l x s).awnings = s.awnings := rfl
@[simp] theorem setReceiver_pumpFault (l : Link) (x : Receiver) (s : State) :
    (setReceiver l x s).pumpFault = s.pumpFault := rfl
@[simp] theorem setReceiver_interlock (l : Link) (x : Receiver) (s : State) :
    (setReceiver l x s).interlock = s.interlock := rfl
@[simp] theorem setReceiver_supply (l : Link) (x : Receiver) (s : State) :
    (setReceiver l x s).supply = s.supply := rfl
@[simp] theorem setReceiver_level (l : Link) (x : Receiver) (s : State) : (setReceiver l x s).level = s.level := rfl
@[simp] theorem setReceiver_program (l : Link) (x : Receiver) (s : State) :
    (setReceiver l x s).program = s.program := rfl
@[simp] theorem setReceiver_wind (l : Link) (x : Receiver) (s : State) : (setReceiver l x s).wind = s.wind := rfl
@[simp] theorem setReceiver_memory (l : Link) (x : Receiver) (s : State) :
    (setReceiver l x s).memory = s.memory := rfl
@[simp] theorem setReceiver_freeCount (l : Link) (x : Receiver) (s : State) :
    (setReceiver l x s).freeCount = s.freeCount := rfl
@[simp] theorem setReceiver_work (l : Link) (x : Receiver) (s : State) : (setReceiver l x s).work = s.work := rfl
@[simp] theorem setReceiver_pending (l : Link) (x : Receiver) (s : State) :
    (setReceiver l x s).pending = s.pending := rfl

/-! ### setFlags -/

@[simp] theorem setFlags_now (l : Link) (f : LinkFlags → LinkFlags) (s : State) : (setFlags l f s).now = s.now := rfl
@[simp] theorem setFlags_powered (l : Link) (f : LinkFlags → LinkFlags) (s : State) :
    (setFlags l f s).powered = s.powered := rfl
@[simp] theorem setFlags_control (l : Link) (f : LinkFlags → LinkFlags) (s : State) :
    (setFlags l f s).control = s.control := rfl
@[simp] theorem setFlags_settings (l : Link) (f : LinkFlags → LinkFlags) (s : State) :
    (setFlags l f s).settings = s.settings := rfl
@[simp] theorem setFlags_links (l : Link) (f : LinkFlags → LinkFlags) (s : State) :
    (setFlags l f s).links = upd s.links l fun r => { r with flags := f r.flags } := rfl
@[simp] theorem setFlags_events (l : Link) (f : LinkFlags → LinkFlags) (s : State) :
    (setFlags l f s).events = s.events := rfl
@[simp] theorem setFlags_sampler (l : Link) (f : LinkFlags → LinkFlags) (s : State) :
    (setFlags l f s).sampler = s.sampler := rfl
@[simp] theorem setFlags_drive (l : Link) (f : LinkFlags → LinkFlags) (s : State) :
    (setFlags l f s).drive = s.drive := rfl
@[simp] theorem setFlags_pulse (l : Link) (f : LinkFlags → LinkFlags) (s : State) :
    (setFlags l f s).pulse = s.pulse := rfl
@[simp] theorem setFlags_sessions (l : Link) (f : LinkFlags → LinkFlags) (s : State) :
    (setFlags l f s).sessions = s.sessions := rfl
@[simp] theorem setFlags_jacks (l : Link) (f : LinkFlags → LinkFlags) (s : State) :
    (setFlags l f s).jacks = s.jacks := rfl
@[simp] theorem setFlags_slides (l : Link) (f : LinkFlags → LinkFlags) (s : State) :
    (setFlags l f s).slides = s.slides := rfl
@[simp] theorem setFlags_awnings (l : Link) (f : LinkFlags → LinkFlags) (s : State) :
    (setFlags l f s).awnings = s.awnings := rfl
@[simp] theorem setFlags_pumpFault (l : Link) (f : LinkFlags → LinkFlags) (s : State) :
    (setFlags l f s).pumpFault = s.pumpFault := rfl
@[simp] theorem setFlags_interlock (l : Link) (f : LinkFlags → LinkFlags) (s : State) :
    (setFlags l f s).interlock = s.interlock := rfl
@[simp] theorem setFlags_supply (l : Link) (f : LinkFlags → LinkFlags) (s : State) :
    (setFlags l f s).supply = s.supply := rfl
@[simp] theorem setFlags_level (l : Link) (f : LinkFlags → LinkFlags) (s : State) :
    (setFlags l f s).level = s.level := rfl
@[simp] theorem setFlags_program (l : Link) (f : LinkFlags → LinkFlags) (s : State) :
    (setFlags l f s).program = s.program := rfl
@[simp] theorem setFlags_wind (l : Link) (f : LinkFlags → LinkFlags) (s : State) :
    (setFlags l f s).wind = s.wind := rfl
@[simp] theorem setFlags_memory (l : Link) (f : LinkFlags → LinkFlags) (s : State) :
    (setFlags l f s).memory = s.memory := rfl
@[simp] theorem setFlags_freeCount (l : Link) (f : LinkFlags → LinkFlags) (s : State) :
    (setFlags l f s).freeCount = s.freeCount := rfl
@[simp] theorem setFlags_work (l : Link) (f : LinkFlags → LinkFlags) (s : State) :
    (setFlags l f s).work = s.work := rfl
@[simp] theorem setFlags_pending (l : Link) (f : LinkFlags → LinkFlags) (s : State) :
    (setFlags l f s).pending = s.pending := rfl

/-! ### sendReply -/

@[simp] theorem sendReply_now (l : Link) (code : Byte) (rep : Reply) (s : State) :
    (sendReply l code rep s).now = s.now := rfl
@[simp] theorem sendReply_powered (l : Link) (code : Byte) (rep : Reply) (s : State) :
    (sendReply l code rep s).powered = s.powered := rfl
@[simp] theorem sendReply_control (l : Link) (code : Byte) (rep : Reply) (s : State) :
    (sendReply l code rep s).control = s.control := rfl
@[simp] theorem sendReply_settings (l : Link) (code : Byte) (rep : Reply) (s : State) :
    (sendReply l code rep s).settings = s.settings := rfl
@[simp] theorem sendReply_links (l : Link) (code : Byte) (rep : Reply) (s : State) :
    (sendReply l code rep s).links
      = upd s.links l fun r => { r with receiver := .reply false rep.after, lastReply := frameBytes (code + 0x80) rep.payload } := rfl
@[simp] theorem sendReply_events (l : Link) (code : Byte) (rep : Reply) (s : State) :
    (sendReply l code rep s).events = s.events := rfl
@[simp] theorem sendReply_sampler (l : Link) (code : Byte) (rep : Reply) (s : State) :
    (sendReply l code rep s).sampler = s.sampler := rfl
@[simp] theorem sendReply_drive (l : Link) (code : Byte) (rep : Reply) (s : State) :
    (sendReply l code rep s).drive = s.drive := rfl
@[simp] theorem sendReply_pulse (l : Link) (code : Byte) (rep : Reply) (s : State) :
    (sendReply l code rep s).pulse = s.pulse := rfl
@[simp] theorem sendReply_sessions (l : Link) (code : Byte) (rep : Reply) (s : State) :
    (sendReply l code rep s).sessions = s.sessions := rfl
@[simp] theorem sendReply_jacks (l : Link) (code : Byte) (rep : Reply) (s : State) :
    (sendReply l code rep s).jacks = s.jacks := rfl
@[simp] theorem sendReply_slides (l : Link) (code : Byte) (rep : Reply) (s : State) :
    (sendReply l code rep s).slides = s.slides := rfl
@[simp] theorem sendReply_awnings (l : Link) (code : Byte) (rep : Reply) (s : State) :
    (sendReply l code rep s).awnings = s.awnings := rfl
@[simp] theorem sendReply_pumpFault (l : Link) (code : Byte) (rep : Reply) (s : State) :
    (sendReply l code rep s).pumpFault = s.pumpFault := rfl
@[simp] theorem sendReply_interlock (l : Link) (code : Byte) (rep : Reply) (s : State) :
    (sendReply l code rep s).interlock = s.interlock := rfl
@[simp] theorem sendReply_supply (l : Link) (code : Byte) (rep : Reply) (s : State) :
    (sendReply l code rep s).supply = s.supply := rfl
@[simp] theorem sendReply_level (l : Link) (code : Byte) (rep : Reply) (s : State) :
    (sendReply l code rep s).level = s.level := rfl
@[simp] theorem sendReply_program (l : Link) (code : Byte) (rep : Reply) (s : State) :
    (sendReply l code rep s).program = s.program := rfl
@[simp] theorem sendReply_wind (l : Link) (code : Byte) (rep : Reply) (s : State) :
    (sendReply l code rep s).wind = s.wind := rfl
@[simp] theorem sendReply_memory (l : Link) (code : Byte) (rep : Reply) (s : State) :
    (sendReply l code rep s).memory = s.memory := rfl
@[simp] theorem sendReply_freeCount (l : Link) (code : Byte) (rep : Reply) (s : State) :
    (sendReply l code rep s).freeCount = s.freeCount := rfl
@[simp] theorem sendReply_work (l : Link) (code : Byte) (rep : Reply) (s : State) :
    (sendReply l code rep s).work = s.work := rfl
@[simp] theorem sendReply_pending (l : Link) (code : Byte) (rep : Reply) (s : State) :
    (sendReply l code rep s).pending = s.pending := rfl

/-! ### setBox -/

@[simp] theorem setBox_now (l : Link) (f : EventBox → EventBox) (s : State) : (setBox l f s).now = s.now := rfl
@[simp] theorem setBox_powered (l : Link) (f : EventBox → EventBox) (s : State) :
    (setBox l f s).powered = s.powered := rfl
@[simp] theorem setBox_control (l : Link) (f : EventBox → EventBox) (s : State) :
    (setBox l f s).control = s.control := rfl
@[simp] theorem setBox_settings (l : Link) (f : EventBox → EventBox) (s : State) :
    (setBox l f s).settings = s.settings := rfl
@[simp] theorem setBox_links (l : Link) (f : EventBox → EventBox) (s : State) : (setBox l f s).links = s.links := rfl
@[simp] theorem setBox_events (l : Link) (f : EventBox → EventBox) (s : State) :
    (setBox l f s).events = upd s.events l f := rfl
@[simp] theorem setBox_sampler (l : Link) (f : EventBox → EventBox) (s : State) :
    (setBox l f s).sampler = s.sampler := rfl
@[simp] theorem setBox_drive (l : Link) (f : EventBox → EventBox) (s : State) : (setBox l f s).drive = s.drive := rfl
@[simp] theorem setBox_pulse (l : Link) (f : EventBox → EventBox) (s : State) : (setBox l f s).pulse = s.pulse := rfl
@[simp] theorem setBox_sessions (l : Link) (f : EventBox → EventBox) (s : State) :
    (setBox l f s).sessions = s.sessions := rfl
@[simp] theorem setBox_jacks (l : Link) (f : EventBox → EventBox) (s : State) : (setBox l f s).jacks = s.jacks := rfl
@[simp] theorem setBox_slides (l : Link) (f : EventBox → EventBox) (s : State) :
    (setBox l f s).slides = s.slides := rfl
@[simp] theorem setBox_awnings (l : Link) (f : EventBox → EventBox) (s : State) :
    (setBox l f s).awnings = s.awnings := rfl
@[simp] theorem setBox_pumpFault (l : Link) (f : EventBox → EventBox) (s : State) :
    (setBox l f s).pumpFault = s.pumpFault := rfl
@[simp] theorem setBox_interlock (l : Link) (f : EventBox → EventBox) (s : State) :
    (setBox l f s).interlock = s.interlock := rfl
@[simp] theorem setBox_supply (l : Link) (f : EventBox → EventBox) (s : State) :
    (setBox l f s).supply = s.supply := rfl
@[simp] theorem setBox_level (l : Link) (f : EventBox → EventBox) (s : State) : (setBox l f s).level = s.level := rfl
@[simp] theorem setBox_program (l : Link) (f : EventBox → EventBox) (s : State) :
    (setBox l f s).program = s.program := rfl
@[simp] theorem setBox_wind (l : Link) (f : EventBox → EventBox) (s : State) : (setBox l f s).wind = s.wind := rfl
@[simp] theorem setBox_memory (l : Link) (f : EventBox → EventBox) (s : State) :
    (setBox l f s).memory = s.memory := rfl
@[simp] theorem setBox_freeCount (l : Link) (f : EventBox → EventBox) (s : State) :
    (setBox l f s).freeCount = s.freeCount := rfl
@[simp] theorem setBox_work (l : Link) (f : EventBox → EventBox) (s : State) : (setBox l f s).work = s.work := rfl
@[simp] theorem setBox_pending (l : Link) (f : EventBox → EventBox) (s : State) :
    (setBox l f s).pending = s.pending := rfl

/-! ### setSlot -/

@[simp] theorem setSlot_now (slot : Slot) (f : SlotResult → SlotResult) (s : State) :
    (setSlot slot f s).now = s.now := rfl
@[simp] theorem setSlot_powered (slot : Slot) (f : SlotResult → SlotResult) (s : State) :
    (setSlot slot f s).powered = s.powered := rfl
@[simp] theorem setSlot_control (slot : Slot) (f : SlotResult → SlotResult) (s : State) :
    (setSlot slot f s).control = s.control := rfl
@[simp] theorem setSlot_settings (slot : Slot) (f : SlotResult → SlotResult) (s : State) :
    (setSlot slot f s).settings = s.settings := rfl
@[simp] theorem setSlot_links (slot : Slot) (f : SlotResult → SlotResult) (s : State) :
    (setSlot slot f s).links = s.links := rfl
@[simp] theorem setSlot_events (slot : Slot) (f : SlotResult → SlotResult) (s : State) :
    (setSlot slot f s).events = s.events := rfl
@[simp] theorem setSlot_sampler (slot : Slot) (f : SlotResult → SlotResult) (s : State) :
    (setSlot slot f s).sampler = { s.sampler with slots := upd s.sampler.slots slot f } := rfl
@[simp] theorem setSlot_drive (slot : Slot) (f : SlotResult → SlotResult) (s : State) :
    (setSlot slot f s).drive = s.drive := rfl
@[simp] theorem setSlot_pulse (slot : Slot) (f : SlotResult → SlotResult) (s : State) :
    (setSlot slot f s).pulse = s.pulse := rfl
@[simp] theorem setSlot_sessions (slot : Slot) (f : SlotResult → SlotResult) (s : State) :
    (setSlot slot f s).sessions = s.sessions := rfl
@[simp] theorem setSlot_jacks (slot : Slot) (f : SlotResult → SlotResult) (s : State) :
    (setSlot slot f s).jacks = s.jacks := rfl
@[simp] theorem setSlot_slides (slot : Slot) (f : SlotResult → SlotResult) (s : State) :
    (setSlot slot f s).slides = s.slides := rfl
@[simp] theorem setSlot_awnings (slot : Slot) (f : SlotResult → SlotResult) (s : State) :
    (setSlot slot f s).awnings = s.awnings := rfl
@[simp] theorem setSlot_pumpFault (slot : Slot) (f : SlotResult → SlotResult) (s : State) :
    (setSlot slot f s).pumpFault = s.pumpFault := rfl
@[simp] theorem setSlot_interlock (slot : Slot) (f : SlotResult → SlotResult) (s : State) :
    (setSlot slot f s).interlock = s.interlock := rfl
@[simp] theorem setSlot_supply (slot : Slot) (f : SlotResult → SlotResult) (s : State) :
    (setSlot slot f s).supply = s.supply := rfl
@[simp] theorem setSlot_level (slot : Slot) (f : SlotResult → SlotResult) (s : State) :
    (setSlot slot f s).level = s.level := rfl
@[simp] theorem setSlot_program (slot : Slot) (f : SlotResult → SlotResult) (s : State) :
    (setSlot slot f s).program = s.program := rfl
@[simp] theorem setSlot_wind (slot : Slot) (f : SlotResult → SlotResult) (s : State) :
    (setSlot slot f s).wind = s.wind := rfl
@[simp] theorem setSlot_memory (slot : Slot) (f : SlotResult → SlotResult) (s : State) :
    (setSlot slot f s).memory = s.memory := rfl
@[simp] theorem setSlot_freeCount (slot : Slot) (f : SlotResult → SlotResult) (s : State) :
    (setSlot slot f s).freeCount = s.freeCount := rfl
@[simp] theorem setSlot_work (slot : Slot) (f : SlotResult → SlotResult) (s : State) :
    (setSlot slot f s).work = s.work := rfl
@[simp] theorem setSlot_pending (slot : Slot) (f : SlotResult → SlotResult) (s : State) :
    (setSlot slot f s).pending = s.pending := rfl

/-! ### setWind -/

@[simp] theorem setWind_now (f : Anemometer → Anemometer) (s : State) : (setWind f s).now = s.now := rfl
@[simp] theorem setWind_powered (f : Anemometer → Anemometer) (s : State) : (setWind f s).powered = s.powered := rfl
@[simp] theorem setWind_control (f : Anemometer → Anemometer) (s : State) : (setWind f s).control = s.control := rfl
@[simp] theorem setWind_settings (f : Anemometer → Anemometer) (s : State) :
    (setWind f s).settings = s.settings := rfl
@[simp] theorem setWind_links (f : Anemometer → Anemometer) (s : State) : (setWind f s).links = s.links := rfl
@[simp] theorem setWind_events (f : Anemometer → Anemometer) (s : State) : (setWind f s).events = s.events := rfl
@[simp] theorem setWind_sampler (f : Anemometer → Anemometer) (s : State) : (setWind f s).sampler = s.sampler := rfl
@[simp] theorem setWind_drive (f : Anemometer → Anemometer) (s : State) : (setWind f s).drive = s.drive := rfl
@[simp] theorem setWind_pulse (f : Anemometer → Anemometer) (s : State) :
    (setWind f s).pulse = { s.pulse with wind := f s.pulse.wind } := rfl
@[simp] theorem setWind_sessions (f : Anemometer → Anemometer) (s : State) :
    (setWind f s).sessions = s.sessions := rfl
@[simp] theorem setWind_jacks (f : Anemometer → Anemometer) (s : State) : (setWind f s).jacks = s.jacks := rfl
@[simp] theorem setWind_slides (f : Anemometer → Anemometer) (s : State) : (setWind f s).slides = s.slides := rfl
@[simp] theorem setWind_awnings (f : Anemometer → Anemometer) (s : State) : (setWind f s).awnings = s.awnings := rfl
@[simp] theorem setWind_pumpFault (f : Anemometer → Anemometer) (s : State) :
    (setWind f s).pumpFault = s.pumpFault := rfl
@[simp] theorem setWind_interlock (f : Anemometer → Anemometer) (s : State) :
    (setWind f s).interlock = s.interlock := rfl
@[simp] theorem setWind_supply (f : Anemometer → Anemometer) (s : State) : (setWind f s).supply = s.supply := rfl
@[simp] theorem setWind_level (f : Anemometer → Anemometer) (s : State) : (setWind f s).level = s.level := rfl
@[simp] theorem setWind_program (f : Anemometer → Anemometer) (s : State) : (setWind f s).program = s.program := rfl
@[simp] theorem setWind_wind (f : Anemometer → Anemometer) (s : State) : (setWind f s).wind = s.wind := rfl
@[simp] theorem setWind_memory (f : Anemometer → Anemometer) (s : State) : (setWind f s).memory = s.memory := rfl
@[simp] theorem setWind_freeCount (f : Anemometer → Anemometer) (s : State) :
    (setWind f s).freeCount = s.freeCount := rfl
@[simp] theorem setWind_work (f : Anemometer → Anemometer) (s : State) : (setWind f s).work = s.work := rfl
@[simp] theorem setWind_pending (f : Anemometer → Anemometer) (s : State) : (setWind f s).pending = s.pending := rfl

/-! ### pushUrgent -/

@[simp] theorem pushUrgent_now (t : Task) (s : State) : (pushUrgent t s).now = s.now := rfl
@[simp] theorem pushUrgent_powered (t : Task) (s : State) : (pushUrgent t s).powered = s.powered := rfl
@[simp] theorem pushUrgent_control (t : Task) (s : State) : (pushUrgent t s).control = s.control := rfl
@[simp] theorem pushUrgent_settings (t : Task) (s : State) : (pushUrgent t s).settings = s.settings := rfl
@[simp] theorem pushUrgent_links (t : Task) (s : State) : (pushUrgent t s).links = s.links := rfl
@[simp] theorem pushUrgent_events (t : Task) (s : State) : (pushUrgent t s).events = s.events := rfl
@[simp] theorem pushUrgent_sampler (t : Task) (s : State) : (pushUrgent t s).sampler = s.sampler := rfl
@[simp] theorem pushUrgent_drive (t : Task) (s : State) : (pushUrgent t s).drive = s.drive := rfl
@[simp] theorem pushUrgent_pulse (t : Task) (s : State) : (pushUrgent t s).pulse = s.pulse := rfl
@[simp] theorem pushUrgent_sessions (t : Task) (s : State) : (pushUrgent t s).sessions = s.sessions := rfl
@[simp] theorem pushUrgent_jacks (t : Task) (s : State) : (pushUrgent t s).jacks = s.jacks := rfl
@[simp] theorem pushUrgent_slides (t : Task) (s : State) : (pushUrgent t s).slides = s.slides := rfl
@[simp] theorem pushUrgent_awnings (t : Task) (s : State) : (pushUrgent t s).awnings = s.awnings := rfl
@[simp] theorem pushUrgent_pumpFault (t : Task) (s : State) : (pushUrgent t s).pumpFault = s.pumpFault := rfl
@[simp] theorem pushUrgent_interlock (t : Task) (s : State) : (pushUrgent t s).interlock = s.interlock := rfl
@[simp] theorem pushUrgent_supply (t : Task) (s : State) : (pushUrgent t s).supply = s.supply := rfl
@[simp] theorem pushUrgent_level (t : Task) (s : State) : (pushUrgent t s).level = s.level := rfl
@[simp] theorem pushUrgent_program (t : Task) (s : State) : (pushUrgent t s).program = s.program := rfl
@[simp] theorem pushUrgent_wind (t : Task) (s : State) : (pushUrgent t s).wind = s.wind := rfl
@[simp] theorem pushUrgent_memory (t : Task) (s : State) : (pushUrgent t s).memory = s.memory := rfl
@[simp] theorem pushUrgent_freeCount (t : Task) (s : State) : (pushUrgent t s).freeCount = s.freeCount := rfl
@[simp] theorem pushUrgent_work (t : Task) (s : State) :
    (pushUrgent t s).work = { s.work with urgent := s.work.urgent ++ [t] } := rfl
@[simp] theorem pushUrgent_pending (t : Task) (s : State) : (pushUrgent t s).pending = s.pending := rfl

/-! ### pushLater -/

@[simp] theorem pushLater_now (t : Task) (s : State) : (pushLater t s).now = s.now := rfl
@[simp] theorem pushLater_powered (t : Task) (s : State) : (pushLater t s).powered = s.powered := rfl
@[simp] theorem pushLater_control (t : Task) (s : State) : (pushLater t s).control = s.control := rfl
@[simp] theorem pushLater_settings (t : Task) (s : State) : (pushLater t s).settings = s.settings := rfl
@[simp] theorem pushLater_links (t : Task) (s : State) : (pushLater t s).links = s.links := rfl
@[simp] theorem pushLater_events (t : Task) (s : State) : (pushLater t s).events = s.events := rfl
@[simp] theorem pushLater_sampler (t : Task) (s : State) : (pushLater t s).sampler = s.sampler := rfl
@[simp] theorem pushLater_drive (t : Task) (s : State) : (pushLater t s).drive = s.drive := rfl
@[simp] theorem pushLater_pulse (t : Task) (s : State) : (pushLater t s).pulse = s.pulse := rfl
@[simp] theorem pushLater_sessions (t : Task) (s : State) : (pushLater t s).sessions = s.sessions := rfl
@[simp] theorem pushLater_jacks (t : Task) (s : State) : (pushLater t s).jacks = s.jacks := rfl
@[simp] theorem pushLater_slides (t : Task) (s : State) : (pushLater t s).slides = s.slides := rfl
@[simp] theorem pushLater_awnings (t : Task) (s : State) : (pushLater t s).awnings = s.awnings := rfl
@[simp] theorem pushLater_pumpFault (t : Task) (s : State) : (pushLater t s).pumpFault = s.pumpFault := rfl
@[simp] theorem pushLater_interlock (t : Task) (s : State) : (pushLater t s).interlock = s.interlock := rfl
@[simp] theorem pushLater_supply (t : Task) (s : State) : (pushLater t s).supply = s.supply := rfl
@[simp] theorem pushLater_level (t : Task) (s : State) : (pushLater t s).level = s.level := rfl
@[simp] theorem pushLater_program (t : Task) (s : State) : (pushLater t s).program = s.program := rfl
@[simp] theorem pushLater_wind (t : Task) (s : State) : (pushLater t s).wind = s.wind := rfl
@[simp] theorem pushLater_memory (t : Task) (s : State) : (pushLater t s).memory = s.memory := rfl
@[simp] theorem pushLater_freeCount (t : Task) (s : State) : (pushLater t s).freeCount = s.freeCount := rfl
@[simp] theorem pushLater_work (t : Task) (s : State) :
    (pushLater t s).work = { s.work with later := s.work.later ++ [t] } := rfl
@[simp] theorem pushLater_pending (t : Task) (s : State) : (pushLater t s).pending = s.pending := rfl

/-! ### postEvent -/

@[simp] theorem postEvent_now (e : Event) (s : State) : (postEvent e s).now = s.now := rfl
@[simp] theorem postEvent_powered (e : Event) (s : State) : (postEvent e s).powered = s.powered := rfl
@[simp] theorem postEvent_control (e : Event) (s : State) : (postEvent e s).control = s.control := rfl
@[simp] theorem postEvent_settings (e : Event) (s : State) : (postEvent e s).settings = s.settings := rfl
@[simp] theorem postEvent_links (e : Event) (s : State) : (postEvent e s).links = s.links := rfl
@[simp] theorem postEvent_events (e : Event) (s : State) :
    (postEvent e s).events = updAll s.events fun _ => EventBox.add e := rfl
@[simp] theorem postEvent_sampler (e : Event) (s : State) : (postEvent e s).sampler = s.sampler := rfl
@[simp] theorem postEvent_drive (e : Event) (s : State) : (postEvent e s).drive = s.drive := rfl
@[simp] theorem postEvent_pulse (e : Event) (s : State) : (postEvent e s).pulse = s.pulse := rfl
@[simp] theorem postEvent_sessions (e : Event) (s : State) : (postEvent e s).sessions = s.sessions := rfl
@[simp] theorem postEvent_jacks (e : Event) (s : State) : (postEvent e s).jacks = s.jacks := rfl
@[simp] theorem postEvent_slides (e : Event) (s : State) : (postEvent e s).slides = s.slides := rfl
@[simp] theorem postEvent_awnings (e : Event) (s : State) : (postEvent e s).awnings = s.awnings := rfl
@[simp] theorem postEvent_pumpFault (e : Event) (s : State) : (postEvent e s).pumpFault = s.pumpFault := rfl
@[simp] theorem postEvent_interlock (e : Event) (s : State) : (postEvent e s).interlock = s.interlock := rfl
@[simp] theorem postEvent_supply (e : Event) (s : State) : (postEvent e s).supply = s.supply := rfl
@[simp] theorem postEvent_level (e : Event) (s : State) : (postEvent e s).level = s.level := rfl
@[simp] theorem postEvent_program (e : Event) (s : State) : (postEvent e s).program = s.program := rfl
@[simp] theorem postEvent_wind (e : Event) (s : State) : (postEvent e s).wind = s.wind := rfl
@[simp] theorem postEvent_memory (e : Event) (s : State) : (postEvent e s).memory = s.memory := rfl
@[simp] theorem postEvent_freeCount (e : Event) (s : State) : (postEvent e s).freeCount = s.freeCount := rfl
@[simp] theorem postEvent_work (e : Event) (s : State) : (postEvent e s).work = s.work := rfl
@[simp] theorem postEvent_pending (e : Event) (s : State) : (postEvent e s).pending = s.pending := rfl

/-! ### changeMode -/

@[simp] theorem changeMode_now (m : DeviceMode) (s : State) : (changeMode m s).now = s.now := rfl
@[simp] theorem changeMode_powered (m : DeviceMode) (s : State) : (changeMode m s).powered = s.powered := rfl
@[simp] theorem changeMode_control (m : DeviceMode) (s : State) :
    (changeMode m s).control = { s.control with mode := m } := rfl
@[simp] theorem changeMode_settings (m : DeviceMode) (s : State) : (changeMode m s).settings = s.settings := rfl
@[simp] theorem changeMode_links (m : DeviceMode) (s : State) : (changeMode m s).links = s.links := rfl
@[simp] theorem changeMode_events (m : DeviceMode) (s : State) :
    (changeMode m s).events = updAll s.events fun _ => EventBox.add .mode := rfl
@[simp] theorem changeMode_sampler (m : DeviceMode) (s : State) : (changeMode m s).sampler = s.sampler := rfl
@[simp] theorem changeMode_drive (m : DeviceMode) (s : State) : (changeMode m s).drive = s.drive := rfl
@[simp] theorem changeMode_pulse (m : DeviceMode) (s : State) : (changeMode m s).pulse = s.pulse := rfl
@[simp] theorem changeMode_sessions (m : DeviceMode) (s : State) : (changeMode m s).sessions = s.sessions := rfl
@[simp] theorem changeMode_jacks (m : DeviceMode) (s : State) : (changeMode m s).jacks = s.jacks := rfl
@[simp] theorem changeMode_slides (m : DeviceMode) (s : State) : (changeMode m s).slides = s.slides := rfl
@[simp] theorem changeMode_awnings (m : DeviceMode) (s : State) : (changeMode m s).awnings = s.awnings := rfl
@[simp] theorem changeMode_pumpFault (m : DeviceMode) (s : State) : (changeMode m s).pumpFault = s.pumpFault := rfl
@[simp] theorem changeMode_interlock (m : DeviceMode) (s : State) : (changeMode m s).interlock = s.interlock := rfl
@[simp] theorem changeMode_supply (m : DeviceMode) (s : State) : (changeMode m s).supply = s.supply := rfl
@[simp] theorem changeMode_level (m : DeviceMode) (s : State) : (changeMode m s).level = s.level := rfl
@[simp] theorem changeMode_program (m : DeviceMode) (s : State) : (changeMode m s).program = s.program := rfl
@[simp] theorem changeMode_wind (m : DeviceMode) (s : State) : (changeMode m s).wind = s.wind := rfl
@[simp] theorem changeMode_memory (m : DeviceMode) (s : State) : (changeMode m s).memory = s.memory := rfl
@[simp] theorem changeMode_freeCount (m : DeviceMode) (s : State) : (changeMode m s).freeCount = s.freeCount := rfl
@[simp] theorem changeMode_work (m : DeviceMode) (s : State) : (changeMode m s).work = s.work := rfl
@[simp] theorem changeMode_pending (m : DeviceMode) (s : State) : (changeMode m s).pending = s.pending := rfl

/-! ### updSession -/

@[simp] theorem updSession_now (k : Cover) (f : Session → Session) (s : State) : (updSession k f s).now = s.now := rfl
@[simp] theorem updSession_powered (k : Cover) (f : Session → Session) (s : State) :
    (updSession k f s).powered = s.powered := rfl
@[simp] theorem updSession_control (k : Cover) (f : Session → Session) (s : State) :
    (updSession k f s).control = s.control := rfl
@[simp] theorem updSession_settings (k : Cover) (f : Session → Session) (s : State) :
    (updSession k f s).settings = s.settings := rfl
@[simp] theorem updSession_links (k : Cover) (f : Session → Session) (s : State) :
    (updSession k f s).links = s.links := rfl
@[simp] theorem updSession_events (k : Cover) (f : Session → Session) (s : State) :
    (updSession k f s).events = s.events := rfl
@[simp] theorem updSession_sampler (k : Cover) (f : Session → Session) (s : State) :
    (updSession k f s).sampler = s.sampler := rfl
@[simp] theorem updSession_drive (k : Cover) (f : Session → Session) (s : State) :
    (updSession k f s).drive = s.drive := rfl
@[simp] theorem updSession_pulse (k : Cover) (f : Session → Session) (s : State) :
    (updSession k f s).pulse = s.pulse := rfl
@[simp] theorem updSession_sessions (k : Cover) (f : Session → Session) (s : State) :
    (updSession k f s).sessions = s.sessions.map fun x => if x.cover = k then f x else x := rfl
@[simp] theorem updSession_jacks (k : Cover) (f : Session → Session) (s : State) :
    (updSession k f s).jacks = s.jacks := rfl
@[simp] theorem updSession_slides (k : Cover) (f : Session → Session) (s : State) :
    (updSession k f s).slides = s.slides := rfl
@[simp] theorem updSession_awnings (k : Cover) (f : Session → Session) (s : State) :
    (updSession k f s).awnings = s.awnings := rfl
@[simp] theorem updSession_pumpFault (k : Cover) (f : Session → Session) (s : State) :
    (updSession k f s).pumpFault = s.pumpFault := rfl
@[simp] theorem updSession_interlock (k : Cover) (f : Session → Session) (s : State) :
    (updSession k f s).interlock = s.interlock := rfl
@[simp] theorem updSession_supply (k : Cover) (f : Session → Session) (s : State) :
    (updSession k f s).supply = s.supply := rfl
@[simp] theorem updSession_level (k : Cover) (f : Session → Session) (s : State) :
    (updSession k f s).level = s.level := rfl
@[simp] theorem updSession_program (k : Cover) (f : Session → Session) (s : State) :
    (updSession k f s).program = s.program := rfl
@[simp] theorem updSession_wind (k : Cover) (f : Session → Session) (s : State) :
    (updSession k f s).wind = s.wind := rfl
@[simp] theorem updSession_memory (k : Cover) (f : Session → Session) (s : State) :
    (updSession k f s).memory = s.memory := rfl
@[simp] theorem updSession_freeCount (k : Cover) (f : Session → Session) (s : State) :
    (updSession k f s).freeCount = s.freeCount := rfl
@[simp] theorem updSession_work (k : Cover) (f : Session → Session) (s : State) :
    (updSession k f s).work = s.work := rfl
@[simp] theorem updSession_pending (k : Cover) (f : Session → Session) (s : State) :
    (updSession k f s).pending = s.pending := rfl

/-! ### removeSession -/

@[simp] theorem removeSession_now (k : Cover) (s : State) : (removeSession k s).now = s.now := rfl
@[simp] theorem removeSession_powered (k : Cover) (s : State) : (removeSession k s).powered = s.powered := rfl
@[simp] theorem removeSession_control (k : Cover) (s : State) : (removeSession k s).control = s.control := rfl
@[simp] theorem removeSession_settings (k : Cover) (s : State) : (removeSession k s).settings = s.settings := rfl
@[simp] theorem removeSession_links (k : Cover) (s : State) : (removeSession k s).links = s.links := rfl
@[simp] theorem removeSession_events (k : Cover) (s : State) : (removeSession k s).events = s.events := rfl
@[simp] theorem removeSession_sampler (k : Cover) (s : State) : (removeSession k s).sampler = s.sampler := rfl
@[simp] theorem removeSession_drive (k : Cover) (s : State) : (removeSession k s).drive = s.drive := rfl
@[simp] theorem removeSession_pulse (k : Cover) (s : State) : (removeSession k s).pulse = s.pulse := rfl
@[simp] theorem removeSession_sessions (k : Cover) (s : State) :
    (removeSession k s).sessions = s.sessions.filter fun x => !decide (x.cover = k) := rfl
@[simp] theorem removeSession_jacks (k : Cover) (s : State) : (removeSession k s).jacks = s.jacks := rfl
@[simp] theorem removeSession_slides (k : Cover) (s : State) : (removeSession k s).slides = s.slides := rfl
@[simp] theorem removeSession_awnings (k : Cover) (s : State) : (removeSession k s).awnings = s.awnings := rfl
@[simp] theorem removeSession_pumpFault (k : Cover) (s : State) : (removeSession k s).pumpFault = s.pumpFault := rfl
@[simp] theorem removeSession_interlock (k : Cover) (s : State) : (removeSession k s).interlock = s.interlock := rfl
@[simp] theorem removeSession_supply (k : Cover) (s : State) : (removeSession k s).supply = s.supply := rfl
@[simp] theorem removeSession_level (k : Cover) (s : State) : (removeSession k s).level = s.level := rfl
@[simp] theorem removeSession_program (k : Cover) (s : State) : (removeSession k s).program = s.program := rfl
@[simp] theorem removeSession_wind (k : Cover) (s : State) : (removeSession k s).wind = s.wind := rfl
@[simp] theorem removeSession_memory (k : Cover) (s : State) : (removeSession k s).memory = s.memory := rfl
@[simp] theorem removeSession_freeCount (k : Cover) (s : State) : (removeSession k s).freeCount = s.freeCount := rfl
@[simp] theorem removeSession_work (k : Cover) (s : State) : (removeSession k s).work = s.work := rfl
@[simp] theorem removeSession_pending (k : Cover) (s : State) : (removeSession k s).pending = s.pending := rfl

/-! ### setRun -/

@[simp] theorem setRun_now (f : RunRecord → RunRecord) (s : State) : (setRun f s).now = s.now := rfl
@[simp] theorem setRun_powered (f : RunRecord → RunRecord) (s : State) : (setRun f s).powered = s.powered := rfl
@[simp] theorem setRun_control (f : RunRecord → RunRecord) (s : State) : (setRun f s).control = s.control := rfl
@[simp] theorem setRun_settings (f : RunRecord → RunRecord) (s : State) : (setRun f s).settings = s.settings := rfl
@[simp] theorem setRun_links (f : RunRecord → RunRecord) (s : State) : (setRun f s).links = s.links := rfl
@[simp] theorem setRun_events (f : RunRecord → RunRecord) (s : State) : (setRun f s).events = s.events := rfl
@[simp] theorem setRun_sampler (f : RunRecord → RunRecord) (s : State) : (setRun f s).sampler = s.sampler := rfl
@[simp] theorem setRun_drive (f : RunRecord → RunRecord) (s : State) : (setRun f s).drive = s.drive := rfl
@[simp] theorem setRun_pulse (f : RunRecord → RunRecord) (s : State) : (setRun f s).pulse = s.pulse := rfl
@[simp] theorem setRun_sessions (f : RunRecord → RunRecord) (s : State) : (setRun f s).sessions = s.sessions := rfl
@[simp] theorem setRun_jacks (f : RunRecord → RunRecord) (s : State) : (setRun f s).jacks = s.jacks := rfl
@[simp] theorem setRun_slides (f : RunRecord → RunRecord) (s : State) : (setRun f s).slides = s.slides := rfl
@[simp] theorem setRun_awnings (f : RunRecord → RunRecord) (s : State) : (setRun f s).awnings = s.awnings := rfl
@[simp] theorem setRun_pumpFault (f : RunRecord → RunRecord) (s : State) : (setRun f s).pumpFault = s.pumpFault := rfl
@[simp] theorem setRun_interlock (f : RunRecord → RunRecord) (s : State) : (setRun f s).interlock = s.interlock := rfl
@[simp] theorem setRun_supply (f : RunRecord → RunRecord) (s : State) : (setRun f s).supply = s.supply := rfl
@[simp] theorem setRun_level (f : RunRecord → RunRecord) (s : State) : (setRun f s).level = s.level := rfl
@[simp] theorem setRun_program (f : RunRecord → RunRecord) (s : State) :
    (setRun f s).program = { s.program with run := s.program.run.map f } := rfl
@[simp] theorem setRun_wind (f : RunRecord → RunRecord) (s : State) : (setRun f s).wind = s.wind := rfl
@[simp] theorem setRun_memory (f : RunRecord → RunRecord) (s : State) : (setRun f s).memory = s.memory := rfl
@[simp] theorem setRun_freeCount (f : RunRecord → RunRecord) (s : State) : (setRun f s).freeCount = s.freeCount := rfl
@[simp] theorem setRun_work (f : RunRecord → RunRecord) (s : State) : (setRun f s).work = s.work := rfl
@[simp] theorem setRun_pending (f : RunRecord → RunRecord) (s : State) : (setRun f s).pending = s.pending := rfl

/-! ### restartIdle -/

@[simp] theorem restartIdle_now (s : State) : (restartIdle s).now = s.now := rfl
@[simp] theorem restartIdle_powered (s : State) : (restartIdle s).powered = s.powered := rfl
@[simp] theorem restartIdle_control (s : State) :
    (restartIdle s).control
      = { s.control with idleDue := s.control.idleDue.map fun _ => s.now + Config.idleTime, wakeFrameMark := s.control.wakeFrameMark || s.control.wake.isSome, wake := none } := rfl
@[simp] theorem restartIdle_settings (s : State) : (restartIdle s).settings = s.settings := rfl
@[simp] theorem restartIdle_links (s : State) : (restartIdle s).links = s.links := rfl
@[simp] theorem restartIdle_events (s : State) : (restartIdle s).events = s.events := rfl
@[simp] theorem restartIdle_sampler (s : State) : (restartIdle s).sampler = s.sampler := rfl
@[simp] theorem restartIdle_drive (s : State) : (restartIdle s).drive = s.drive := rfl
@[simp] theorem restartIdle_pulse (s : State) : (restartIdle s).pulse = s.pulse := rfl
@[simp] theorem restartIdle_sessions (s : State) : (restartIdle s).sessions = s.sessions := rfl
@[simp] theorem restartIdle_jacks (s : State) : (restartIdle s).jacks = s.jacks := rfl
@[simp] theorem restartIdle_slides (s : State) : (restartIdle s).slides = s.slides := rfl
@[simp] theorem restartIdle_awnings (s : State) : (restartIdle s).awnings = s.awnings := rfl
@[simp] theorem restartIdle_pumpFault (s : State) : (restartIdle s).pumpFault = s.pumpFault := rfl
@[simp] theorem restartIdle_interlock (s : State) : (restartIdle s).interlock = s.interlock := rfl
@[simp] theorem restartIdle_supply (s : State) : (restartIdle s).supply = s.supply := rfl
@[simp] theorem restartIdle_level (s : State) : (restartIdle s).level = s.level := rfl
@[simp] theorem restartIdle_program (s : State) : (restartIdle s).program = s.program := rfl
@[simp] theorem restartIdle_wind (s : State) : (restartIdle s).wind = s.wind := rfl
@[simp] theorem restartIdle_memory (s : State) : (restartIdle s).memory = s.memory := rfl
@[simp] theorem restartIdle_freeCount (s : State) : (restartIdle s).freeCount = s.freeCount := rfl
@[simp] theorem restartIdle_work (s : State) : (restartIdle s).work = s.work := rfl
@[simp] theorem restartIdle_pending (s : State) : (restartIdle s).pending = s.pending := rfl

/-! ### setInterlock -/

@[simp] theorem setInterlock_now (x : InterlockUnit) (s : State) : (setInterlock x s).now = s.now := rfl
@[simp] theorem setInterlock_powered (x : InterlockUnit) (s : State) : (setInterlock x s).powered = s.powered := rfl
@[simp] theorem setInterlock_control (x : InterlockUnit) (s : State) : (setInterlock x s).control = s.control := rfl
@[simp] theorem setInterlock_settings (x : InterlockUnit) (s : State) : (setInterlock x s).settings = s.settings := rfl
@[simp] theorem setInterlock_links (x : InterlockUnit) (s : State) : (setInterlock x s).links = s.links := rfl
@[simp] theorem setInterlock_events (x : InterlockUnit) (s : State) : (setInterlock x s).events = s.events := rfl
@[simp] theorem setInterlock_sampler (x : InterlockUnit) (s : State) : (setInterlock x s).sampler = s.sampler := rfl
@[simp] theorem setInterlock_drive (x : InterlockUnit) (s : State) : (setInterlock x s).drive = s.drive := rfl
@[simp] theorem setInterlock_pulse (x : InterlockUnit) (s : State) : (setInterlock x s).pulse = s.pulse := rfl
@[simp] theorem setInterlock_sessions (x : InterlockUnit) (s : State) : (setInterlock x s).sessions = s.sessions := rfl
@[simp] theorem setInterlock_jacks (x : InterlockUnit) (s : State) : (setInterlock x s).jacks = s.jacks := rfl
@[simp] theorem setInterlock_slides (x : InterlockUnit) (s : State) : (setInterlock x s).slides = s.slides := rfl
@[simp] theorem setInterlock_awnings (x : InterlockUnit) (s : State) : (setInterlock x s).awnings = s.awnings := rfl
@[simp] theorem setInterlock_pumpFault (x : InterlockUnit) (s : State) :
    (setInterlock x s).pumpFault = s.pumpFault := rfl
@[simp] theorem setInterlock_interlock (x : InterlockUnit) (s : State) :
    (setInterlock x s).interlock = x := rfl
@[simp] theorem setInterlock_supply (x : InterlockUnit) (s : State) : (setInterlock x s).supply = s.supply := rfl
@[simp] theorem setInterlock_level (x : InterlockUnit) (s : State) : (setInterlock x s).level = s.level := rfl
@[simp] theorem setInterlock_program (x : InterlockUnit) (s : State) : (setInterlock x s).program = s.program := rfl
@[simp] theorem setInterlock_wind (x : InterlockUnit) (s : State) : (setInterlock x s).wind = s.wind := rfl
@[simp] theorem setInterlock_memory (x : InterlockUnit) (s : State) : (setInterlock x s).memory = s.memory := rfl
@[simp] theorem setInterlock_freeCount (x : InterlockUnit) (s : State) :
    (setInterlock x s).freeCount = s.freeCount := rfl
@[simp] theorem setInterlock_work (x : InterlockUnit) (s : State) : (setInterlock x s).work = s.work := rfl
@[simp] theorem setInterlock_pending (x : InterlockUnit) (s : State) : (setInterlock x s).pending = s.pending := rfl

/-! ### reach -/

@[simp] theorem reach_now (t : Nat) (s : State) : (reach t s).now = max s.now t := rfl
@[simp] theorem reach_powered (t : Nat) (s : State) : (reach t s).powered = s.powered := rfl
@[simp] theorem reach_control (t : Nat) (s : State) : (reach t s).control = s.control := rfl
@[simp] theorem reach_settings (t : Nat) (s : State) : (reach t s).settings = s.settings := rfl
@[simp] theorem reach_links (t : Nat) (s : State) : (reach t s).links = s.links := rfl
@[simp] theorem reach_events (t : Nat) (s : State) : (reach t s).events = s.events := rfl
@[simp] theorem reach_sampler (t : Nat) (s : State) : (reach t s).sampler = s.sampler := rfl
@[simp] theorem reach_drive (t : Nat) (s : State) : (reach t s).drive = s.drive := rfl
@[simp] theorem reach_pulse (t : Nat) (s : State) : (reach t s).pulse = s.pulse := rfl
@[simp] theorem reach_sessions (t : Nat) (s : State) : (reach t s).sessions = s.sessions := rfl
@[simp] theorem reach_jacks (t : Nat) (s : State) : (reach t s).jacks = s.jacks := rfl
@[simp] theorem reach_slides (t : Nat) (s : State) : (reach t s).slides = s.slides := rfl
@[simp] theorem reach_awnings (t : Nat) (s : State) : (reach t s).awnings = s.awnings := rfl
@[simp] theorem reach_pumpFault (t : Nat) (s : State) : (reach t s).pumpFault = s.pumpFault := rfl
@[simp] theorem reach_interlock (t : Nat) (s : State) : (reach t s).interlock = s.interlock := rfl
@[simp] theorem reach_supply (t : Nat) (s : State) : (reach t s).supply = s.supply := rfl
@[simp] theorem reach_level (t : Nat) (s : State) : (reach t s).level = s.level := rfl
@[simp] theorem reach_program (t : Nat) (s : State) : (reach t s).program = s.program := rfl
@[simp] theorem reach_wind (t : Nat) (s : State) : (reach t s).wind = s.wind := rfl
@[simp] theorem reach_memory (t : Nat) (s : State) : (reach t s).memory = s.memory := rfl
@[simp] theorem reach_freeCount (t : Nat) (s : State) : (reach t s).freeCount = s.freeCount := rfl
@[simp] theorem reach_work (t : Nat) (s : State) : (reach t s).work = s.work := rfl
@[simp] theorem reach_pending (t : Nat) (s : State) : (reach t s).pending = s.pending := rfl

end Sys2Proof.Machine
end

