-- ==== Sys2Proof/Tests/Slice0.lean ====
section
/-! SUPPORT. Tests: the checks of WellFormed, figures worked out by hand from the manual, and for every statement with
hypotheses a concrete state and operands that meet them all together. -/

namespace Sys2Proof.Tests

open Sys2Proof.Machine

/-! ### Commands -/

theorem test_wellFormed_refuses_trip_without_counter : (Instr.exceedanceTrip 0).wellFormed = false := by decide

theorem test_wellFormed_refuses_pull_in_of_pump : (Instr.pullInEnd 10).wellFormed = false := by decide

theorem test_wellFormed_refuses_long_value : (Instr.writeSetting 0 0x0201 (List.replicate 47 0)).wellFormed = false := by
  decide

theorem test_no_word_spells_a_command : decodeTableWord 8 0 = none ∧ decodeTableWord 64 0x5C = none := by decide

/-! ### Figures worked out by hand from the rules -/

/-- 11 R180: the worked KEEP frame is 5C 00 02 D9 AC. -/
theorem test_keep_frame : frameBytes 0x02 [] = [0x5C, 0x00, 0x02, 0xD9, 0xAC] := by decide +kernel

/-- 02 R23: (−862 × 1991) / 1024 truncates toward zero to −1676. -/
theorem test_scaling_truncates_toward_zero : ((-862 * 1991 : Int).tdiv 1024) = -1676 := by decide

/-- 08 R136: outward with the front 20 ahead, the front is slowed by 6 × (20 − 8) and the rear keeps the base. -/
theorem test_trim_outward :
    motorDuty .front 850 .outward 20 .none = 778 ∧ motorDuty .rear 850 .outward 20 .none = 850
      ∧ motorDuty .rear 850 .inward 20 .none = 778 ∧ motorDuty .front 850 .outward 8 .none = 850
      ∧ motorDuty .front 450 .outward 119 .none = 200 := by decide

/-- 03 R38: at duty 1000 a pin is high throughout, at 0 low; a motor's high interval lies in the middle. -/
theorem test_pin_alignment :
    pinHigh 0 1000 0 = true ∧ pinHigh 0 0 25 = false ∧ pinHigh 0 500 0 = false ∧ pinHigh 0 500 25 = true
      ∧ pinHigh 11 500 0 = true ∧ pinHigh 11 500 2500 = false := by decide

/-- 11 section 11.8: settings are named by a class byte and an item byte. -/
theorem test_setting_numbers :
    settingKey 0x0201 = some .pumpAmps ∧ settingKey 0x0104 = some (.permission 3) ∧ settingKey 0x0200 = none
      ∧ settingKey 0x0105 = none ∧ settingKey 0x0B00 = none := by decide

/-- 10 R163, R164: the default programs 0 and 1 are chains of 6 and 7 steps, and 2 and 3 are invalid. -/
theorem test_default_chains :
    chainOf 0 State.reset = some [0, 1, 2, 3, 4, 5] ∧ chainOf 1 State.reset = some [6, 7, 8, 9, 10, 11, 12]
      ∧ chainOf 2 State.reset = none := by decide

/-! ### A coach at rest -/

/-- READY, parked, everything stowed and homed, every slot valid. -/
def coach : State :=
  { State.reset with
    control := { mode := .ready, load := .none, idleDue := some (minutes 30) }
    interlock := ⟨some ⟨.off, true, .park, 0, false⟩, true, some (seconds 2), false, false⟩
    sampler := { State.reset.sampler with
      running := true, slots := Vector.replicate 16 ⟨0, true, 0, 0, false⟩, pitch := ⟨0, true⟩, roll := ⟨0, true⟩ }
    slides := Vector.replicate 4 { state := .stowed, homed := true }
    awnings := Vector.replicate 2 { state := .stowed, homed := true } }

def hearsNow (l : Link) (s : State) : Bool :=
  s.powered && decide (s.work = {}) && (decide (s.control.mode = .ready) || decide (s.control.mode = .service))
    && decide (s.links[l].receiver = .hunt)

theorem hears_of {l : Link} {s : State} (h : hearsNow l s = true) : Hears l s := by
  simp only [hearsNow, Bool.and_eq_true, Bool.or_eq_true, decide_eq_true_eq] at h
  exact ⟨⟨h.1.1.1, h.1.1.2⟩, h.1.2, .inl h.2⟩

def settledNow (s : State) : Bool :=
  s.powered && decide (s.work = {}) && decide (s.control.idleDue.isSome = idleHolds s)
    && match s.control.wake with | some w => !w.expired | none => true

theorem settled_of {s : State} (h : settledNow s = true) : Settled s := by
  simp only [settledNow, Bool.and_eq_true, decide_eq_true_eq] at h
  refine ⟨h.1.1, h.1.2, fun w hw => ?_⟩
  simpa [hw] using h.2

theorem coach_hears : ∀ l : Link, Hears l coach := fun l => hears_of (by revert l; decide)

theorem coach_settled : Settled coach := settled_of (by decide)

theorem coach_atRest : AtRest coach := by unfold AtRest; decide

theorem coach_driveAway : DriveAwayAgrees coach := by unfold DriveAwayAgrees AlarmFollows; decide

/-! ### Witnesses: the machine and what every step keeps -/

theorem witness_EmptyQueueTicks : State.reset.pending = [] := rfl

theorem coach_linesAgree : LinesAgree coach := by unfold LinesAgree; decide

/-- A road speed of 10 km/h with an awning retracting on the reserve, and a posture write with one behind it. -/
def travelling : State :=
  { coach with
    control := { coach.control with idleDue := none }
    interlock := ⟨some ⟨.on, false, .other, 100, true⟩, true, some (seconds 2), true, true⟩
    sessions := [{
      cover := .one (.awning 0), op := .move, owner := .internal, origin := .ignition, kind := .oneTouch
      dir := some .inward, target := none, creep := false, jogged := false, phase := .running, keepDue := none
      runLimit := seconds 60, runLeft := seconds 60, runFrom := some 0, pendingEnd := none }]
    awnings := upd coach.awnings 0 fun e => { e with state := .retracting }
    supply := { coach.supply with allotments := [⟨.session (.one (.awning 0)), 9, none⟩] }
    memory := { coach.memory with writing := some (.settings coach.settings), pendingWrites := [.posture] }
    pending := [.keep 0] }

theorem witness_StepKeeps_next : ∃ t, step travelling = .next t := ⟨_, rfl⟩

theorem witness_StepKeepsAttentionLines : LinesAgree travelling := coach_linesAgree

theorem witness_StepKeepsDriveAway :
    DriveAwayAgrees travelling ∧ travelling.interlock.driveAway = true
      ∧ ∀ c rest, travelling.pending = c :: rest → ¬CompletesMotionReset c travelling := by
  refine ⟨by unfold DriveAwayAgrees AlarmFollows; decide, rfl, fun c rest h => ?_⟩
  cases (List.cons.inj (show [Instr.keep 0] = c :: rest from h)).1
  exact id

theorem witness_StepKeepsWriteQueue : WritesOrdered travelling := by unfold WritesOrdered; decide

theorem witness_StepKeepsOneSessionPerChannel : OneSessionEach travelling := by unfold OneSessionEach; decide

theorem witness_StepKeepsCurrentWithinBudget :
    SupplyKept { travelling with
      supply := { travelling.supply with allotments := [⟨.pump [.allJacks], 140, some 1⟩] } } := by
  unfold SupplyKept; decide

theorem witness_StepKeepsTravelStill : chassisCondition travelling = .travel ∧ TravelStill travelling := by
  unfold TravelStill; decide

/-! ### Witnesses: requests as bytes -/

/-- The coach with the receiver of one link elsewhere. -/
def receiving (l : Link) (r : Receiver) : State :=
  { coach with links := upd coach.links l fun x => { x with receiver := r } }

theorem witness_FrameBytesMeanTheirRequest :
    requestFrame (.writeSetting 0 0x0401 [0, 30]) = some (0, 0x16, [0x04, 0x01, 0, 30])
      ∧ (Instr.writeSetting 0 0x0401 [0, 30]).wellFormed = true
      ∧ Settled coach ∧ coach.control.mode ≠ .sleep ∧ coach.links[(0 : Link)].receiver = .hunt :=
  ⟨by decide, by decide, coach_settled, by decide, by decide⟩

theorem receiving_settled (l : Link) (r : Receiver) : Settled (receiving l r) := coach_settled

/-- A full reset whose writes are done. -/
def resetting : State :=
  { coach with control := { coach.control with mode := .loading, load := .awaitWrites, idleDue := none } }

theorem witness_LinkByteMovesReceiver :
    (∀ r, Settled (receiving 0 r) ∧ (receiving 0 r).control.mode ≠ .sleep ∧ (receiving 0 r).links[(0 : Link)].receiver = r)
      ∧ (∀ late after, Receiver.discard ≠ .reply late after ∧ Receiver.discard ≠ .sleptReply after)
      ∧ (48 : Byte).toNat ≤ 48 ∧ 48 < (49 : Byte).toNat
      ∧ (0 : Byte).toNat ≤ 48 ∧ ([0x02] : List Byte).length + 2 < (0 : Byte).toNat + 4
      ∧ ([] : List Byte).length ≤ 48 ∧ [(0xD9 : Byte), 0xAD] ≠ bytesOf 2 (crc16 (byte 0 :: 0x02 :: [])).toNat :=
  ⟨fun _ => ⟨coach_settled, (by decide : coach.control.mode ≠ .sleep), rfl⟩, by simp, by decide +kernel⟩

/-- The worked KEEP frame of 11 R180 with a byte too much, and frames that the four checks of 11 R183 answer. -/
theorem witness_LinkByteMovesReceiver_answers :
    Settled resetting ∧ resetting.control.mode ≠ .sleep ∧ linkAnswer 0x02 [] resetting = some .notReady
      ∧ linkAnswer 0x18 [] coach = some .unknownRequest ∧ linkAnswer 0 [1, 2] coach = some .unknownRequest
      ∧ linkAnswer 0x02 [0] coach = some .badLength ∧ linkAnswer 0x04 [7, 0, 0, 0] coach = some .badLength
      ∧ linkAnswer 0x04 [13, 0, 0] coach = some .badArg ∧ linkAnswer 0x04 [12, 1, 4] coach = some .badArg
      ∧ linkAnswer 0x03 [13] coach = some .badArg ∧ linkAnswer 0x01 [2] coach = some .badArg
      ∧ linkAnswer 0x12 [3] coach = some .badArg ∧ linkAnswer 0x0F [14] coach = some .badArg
      ∧ linkAnswer 0x15 [0, 0] coach = some .badArg ∧ linkAnswer 0x15 [2, 1, 0] coach = some .badLength
      ∧ linkAnswer 0x16 [2, 1] coach = some .badLength ∧ linkAnswer 0x11 [0] coach = some .badLength
      ∧ linkAnswer 0x04 [12, 1, 3] coach = none ∧ linkAnswer 0x03 [0xFF] coach = none
      ∧ linkAnswer 0x0F [13] coach = none ∧ linkAnswer 0x15 [2, 1] coach = none ∧ linkAnswer 0x16 [2, 1, 9] coach = none :=
  ⟨settled_of (by decide), by decide⟩

/-- Asleep for 10 s. -/
def asleep : State :=
  { coach with
    now := seconds 10
    control := { coach.control with mode := .sleep, idleDue := none }
    sampler := { coach.sampler with running := false }
    pulse := { coach.pulse with offSince := some 0 } }

/-- Asleep, a reply of Link 2 still being sent. -/
def sleptReplying : State :=
  { asleep with links := upd asleep.links 1 fun r => { r with receiver := .sleptReply .nothing } }

theorem witness_StartByteWakes :
    Quiet asleep ∧ asleep.control.mode = .sleep ∧ asleep.control.wake = none ∧ asleep.control.idleDue = none
      ∧ (∀ l : Link, asleep.links[l].receiver = .hunt)
      ∧ Quiet sleptReplying ∧ sleptReplying.control.mode = .sleep ∧ sleptReplying.control.wake = none
      ∧ sleptReplying.links[(1 : Link)].receiver = .sleptReply .nothing ∧ sleptReplying.control.idleDue = none
      ∧ asleep.settings.permissions[(3 : Link)] = 0b100000 ∧ asleep.settings.permissions[(0 : Link)] ≠ 0b100000
      ∧ asleep.pulse.offSince = some 0 := by
  unfold Quiet; decide

theorem witness_ReceiverTimersReturnToHunt :
    (∀ r, Settled (receiving 2 r) ∧ (receiving 2 r).links[(2 : Link)].receiver = r)
      ∧ (receiving 2 (.reply true .nothing)).control.mode ≠ .sleep :=
  ⟨fun _ => ⟨coach_settled, rfl⟩, by decide⟩

theorem witness_ReceiverTimersReturnToHunt_slept :
    Settled sleptReplying ∧ sleptReplying.links[(1 : Link)].receiver = .sleptReply .nothing :=
  ⟨settled_of (by decide), by decide⟩

/-! ### Witnesses: requests that start no motion -/

theorem witness_requests :
    Hears 0 coach ∧ Hears 3 coach ∧ coach.control.mode = .ready :=
  ⟨coach_hears 0, coach_hears 3, rfl⟩

/-- In Service, owned by Link 1. -/
def serviced : State :=
  { coach with
    control := { coach.control with
      mode := .service, serviceOwner := some 0, serviceDue := some (minutes 15), idleDue := none, settingsChanged := true } }

theorem witness_ReadLinkStatusClearsFlags :
    Hears 0 { coach with links := upd coach.links 0 fun x => { x with flags := ⟨true, true, true, true, true⟩ } } :=
  hears_of (by decide)

theorem witness_ReadFaultsListsAndMarks :
    Hears 0 { coach with pumpFault := ⟨some .overcurrent, true, Vector.replicate 4 false⟩ } := hears_of (by decide)

/-- The tilt sampler's offset, 08 00: written at its least and greatest value, and one past it. -/
theorem witness_SettingsAreReadAndWritten :
    Hears 0 serviced ∧ settingKey 0x0000 = none ∧ settingKey 0x0601 = some (.awningFull 0)
      ∧ settingKey 0x0603 = some (.clearance 0)
      ∧ permits 3 .configure serviced = false ∧ permits 0 .configure serviced = true
      ∧ permits 1 .configure serviced = true ∧ serviced.control.serviceOwner ≠ some 1
      ∧ serviced.control.mode = .service ∧ serviced.control.serviceOwner = some 0 ∧ serviced.sessions = []
      ∧ ([0, 1] : List Byte).length = (SettingKey.clearance 0).size :=
  ⟨hears_of (by decide), by decide⟩

theorem witness_SettingReadsBackAsWritten :
    (0xFF9C : Nat) < 256 ^ (SettingKey.jackX 2).size
      ∧ (storeKey (.jackX 2) (some 0) 0xFF9C Settings.defaults).clamped = false
      ∧ SettingKey.pumpAmps ≠ .jackX 2
      ∧ (storeKey .pumpAmps (some 0) 250 Settings.defaults).clamped = false
      ∧ (storeKey .pumpAmps (some 0) 251 Settings.defaults).clamped = true := by
  decide

theorem witness_CaptureLevelZeroes : Hears 0 serviced := hears_of (by decide)

/-! ### Witnesses: chassis, modes and resets -/

theorem witness_ChassisStatusTakesRecord :
    Hears 3 coach ∧ Hears 0 coach ∧ Settled coach ∧ coach.control.mode = .ready
      ∧ permits 0 .chassis coach = false ∧ permits 3 .chassis coach = true
      ∧ ¬((3 : Byte).toNat ≤ 2) ∧ (2 : Byte).toNat ≤ 2
      ∧ Ignition.on.code = (2 : Byte).toNat ∧ Gear.other.code = (2 : Byte).toNat
      ∧ 2000 = min (2001 : Word).toNat 2000 ∧ coach.sessions = [] ∧ DriveAwayAgrees coach
      ∧ coach.level.state ≠ .holding ∧ ignitionOn coach = false
      ∧ ∀ a : Awning, coach.settings.autoRetract[a] = true → coach.awnings[a].state = .stowed :=
  ⟨coach_hears 3, coach_hears 0, coach_settled, by decide, by decide, by decide, by decide, by decide, by decide,
    by decide, by decide, by decide, coach_driveAway, by decide⟩

theorem witness_SleepIsEntered :
    (∀ r, Settled (receiving 1 r) ∧ (receiving 1 r).links[(1 : Link)].receiver = r)
      ∧ (receiving 1 (.reply false .sleep)).control.mode ≠ .sleep
      ∧ Settled serviced ∧ Settled coach ∧ coach.control.idleDue = some (minutes 30) :=
  ⟨fun _ => ⟨coach_settled, rfl⟩, by decide, settled_of (by decide), coach_settled, rfl⟩

theorem witness_ServiceExitStoresSettings :
    serviced.control.mode = .service ∧ (∀ x ∈ serviced.sessions, x.kind ≠ .jog) ∧ Hears 0 serviced
      ∧ Settled serviced ∧ serviced.control.serviceDue = some (minutes 15) :=
  ⟨rfl, by decide, hears_of (by decide), settled_of (by decide), rfl⟩

theorem witness_MotionResetEndsAllMotion :
    Hears 0 serviced ∧ Hears 3 serviced ∧ Hears 1 serviced
      ∧ permits 3 .moveJack serviced = false ∧ permits 3 .moveSlide serviced = false
      ∧ permits 3 .moveAwning serviced = false ∧ permits 1 .moveJack serviced = true
      ∧ serviced.control.serviceOwner ≠ some 1 ∧ permits 0 .moveJack serviced = true
      ∧ serviced.control.serviceOwner = some 0 ∧ OneSessionEach serviced :=
  ⟨hears_of (by decide), hears_of (by decide), hears_of (by decide), by unfold OneSessionEach; decide⟩

theorem witness_FullResetWaitsForWrites :
    Settled (receiving 0 (.reply false .fullReset))
      ∧ (receiving 0 (.reply false .fullReset)).links[(0 : Link)].receiver = .reply false .fullReset :=
  ⟨coach_settled, by decide⟩

theorem witness_PowerOnAndReloadRebuild :
    coach.memory.writing = none ∧ travelling.memory.writing = some (.settings travelling.settings)
      ∧ WritesOrdered travelling ∧ Settled resetting ∧ resetting.control.mode = .loading ∧ resetting.control.load = .awaitWrites
      ∧ resetting.memory.writing = none ∧ resetting.memory.pendingWrites = [] :=
  ⟨rfl, rfl, witness_StepKeepsWriteQueue, settled_of (by decide), rfl, rfl, rfl, rfl⟩

/-- A posture in which only slide 2 stands out, at 9200 of 9600. -/
def leftOut : PostureImage :=
  { slides := upd (Vector.replicate 4 ⟨0, 0, .stowed, true⟩) 1 fun _ => ⟨9200, 9200, .extended, true⟩
    awnings := Vector.replicate 2 ⟨0, .stowed, true⟩
    jacks := Vector.replicate 6 ⟨.stowed, 0⟩ }

theorem leftOut_fits : leftOut.Fits := by
  unfold PostureImage.Fits; decide

theorem defaults_fits : Settings.defaults.Fits := by
  refine ⟨?_, ?_, ?_, ?_, ?_, ?_, ?_, ?_, ?_, ?_, ?_, ?_, fun slot => ⟨?_, ?_, ?_, ?_, ?_, ?_, ?_, ?_, ?_⟩⟩ <;>
    first | decide | (revert slot; decide +kernel)

/-- Both blocks written, the posture after the settings. -/
def stored : List Host.Cell := Block.posture.write leftOut.put (Block.settings.write Settings.defaults.put [])

theorem settings_written : storedSettings (Block.settings.write Settings.defaults.put []) = some Settings.defaults :=
  storedSettings_write _ _ defaults_fits (by decide)

theorem posture_written : storedPosture stored = some leftOut :=
  storedPosture_write _ _ leftOut_fits
    (Block.write_wf _ _ _ (by rw [Settings.put_length]; decide) (by decide))

/-- 12 R195: a memory in which nothing has been written holds no valid block. -/
theorem test_blank_blocks_fail : storedSettings [] = none ∧ storedPosture [] = none := by
  simp [storedSettings, storedPosture, Block.blank_fails]

theorem witness_SettingsBlockIsLoaded :
    Settled State.reset ∧ State.reset.control.mode = .loading ∧ State.reset.control.load = .settings
      ∧ storedSettings State.reset.memory.bytes = none :=
  ⟨settled_of (by decide), rfl, rfl, test_blank_blocks_fail.1⟩

theorem witness_SettingsBlockIsLoaded_valid :
    Settled { State.reset with memory := { bytes := Block.settings.write Settings.defaults.put [] } } := settled_of rfl

def halfLoaded (bytes : List Host.Cell) : State :=
  { State.reset with
    control := { State.reset.control with load := .posture }, memory := { bytes := bytes } }

theorem witness_PostureBlockIsLoaded :
    (∀ bytes, Settled (halfLoaded bytes) ∧ (halfLoaded bytes).memory.bytes = bytes)
      ∧ storedPosture stored = some leftOut ∧ storedPosture [] = none
      ∧ (halfLoaded []).control.mode = .loading ∧ (halfLoaded []).control.load = .posture
      ∧ (halfLoaded []).sessions = [] ∧ (halfLoaded []).program.run = none ∧ (halfLoaded []).interlock = {} :=
  ⟨fun _ => ⟨settled_of rfl, rfl⟩, posture_written, test_blank_blocks_fail.2, rfl, rfl, rfl, rfl, rfl⟩

/-- A write in progress, with the other block's behind it. -/
def writing (image : WriteImage) (next : List Block) : State :=
  { coach with memory := { coach.memory with writing := some image, pendingWrites := next } }

theorem witness_WritesEndAndTheNextBegins :
    Settled coach ∧ WritesOrdered coach ∧ coach.memory.writing = none
      ∧ (∀ image next, Settled (writing image next) ∧ (writing image next).memory.writing = some image)
      ∧ WritesOrdered (writing (.posture leftOut) [.settings]) ∧ WritesOrdered (writing (.settings Settings.defaults) []) :=
  ⟨coach_settled, by unfold WritesOrdered; decide, rfl, fun _ _ => ⟨settled_of rfl, rfl⟩,
    by unfold WritesOrdered; decide, by unfold WritesOrdered; decide⟩

theorem witness_PowerLossStopsThePart :
    State.powered { coach with powered := false } = false ∧ Instr.keep 0 ≠ .powerOn ∧ coach.powered = true
      ∧ coach.memory.writing = none ∧ WritesOrdered coach ∧ travelling.powered = true
      ∧ travelling.memory.writing = some (.settings coach.settings) ∧ WritesOrdered travelling := by
  unfold WritesOrdered; decide

/-! ### Witnesses: motion -/

theorem witness_SlideMoveStarts_inward :
    Hears 0 coach ∧ coach.control.mode = .ready ∧ AtRest coach ∧ DriveAwayAgrees coach
      ∧ permits 0 .moveSlide coach = true ∧ KindAsked.hold ≠ .jog ∧ chassisCondition coach = .parked
      ∧ coach.control.settingsDefaulted = false ∧ coach.slides[(0 : Slide)].homed = true
      ∧ coach.slides[(0 : Slide)].fault.kind = none ∧ Dir.inward ≠ .outward
      ∧ (∀ a : Awning, inConflict 0 a coach = true →
          coach.awnings[a].homed = true ∧ awningPosition a coach ≤ coach.settings.clearance[a])
      ∧ coach.settings.slideAmps ≤ budget coach ∧ (slideSkew 0 coach).natAbs ≤ 8 :=
  ⟨coach_hears 0, rfl, coach_atRest, coach_driveAway, by decide⟩

/-- The coach on its six jacks, slide 2 at 9200 with its front 8 ahead, holding a found level. -/
def levelledCoach : State :=
  { coach with
    jacks := Vector.replicate 6 { state := .contact }
    sampler := { coach.sampler with
      slots := updAll coach.sampler.slots fun k r => { r with
        tripped := decide (2 ≤ k.val ∧ k.val ≤ 7)
        lastValid := if 2 ≤ k.val ∧ k.val ≤ 13 then 300 else if k.val = 14 then 1330 else 0 } }
    pulse := { coach.pulse with
      inputs := upd (upd coach.pulse.inputs 2 fun h => { h with count := 9204 }) 3 fun h => { h with count := 9196 } }
    slides := upd coach.slides 1 fun e => { e with state := .extended }
    level := { coach.level with state := .holding, outcome := .levelled, drift := 299 } }

theorem levelledCoach_settled : Settled levelledCoach := settled_of (by decide)

theorem witness_SlideMoveStarts_outward :
    Hears 1 levelledCoach ∧ AtRest levelledCoach ∧ DriveAwayAgrees levelledCoach
      ∧ permits 1 .moveSlide levelledCoach = true ∧ chassisCondition levelledCoach = .parked
      ∧ levelledCoach.slides[(1 : Slide)].homed = true ∧ levelledCoach.settings.support[(1 : Slide)] = true
      ∧ supported levelledCoach = true ∧ slidePosition 1 levelledCoach = 9200
      ∧ (∀ a : Awning, inConflict 1 a levelledCoach = true →
          levelledCoach.awnings[a].homed = true
            ∧ awningPosition a levelledCoach ≤ levelledCoach.settings.clearance[a])
      ∧ levelledCoach.settings.slideAmps ≤ budget levelledCoach ∧ (slideSkew 1 levelledCoach).natAbs = 8 :=
  ⟨hears_of (by decide), by unfold AtRest; decide, by unfold DriveAwayAgrees AlarmFollows; decide, by decide⟩

/-- Awning A1 stands out by 200. -/
def shaded : State :=
  { coach with
    awnings := upd coach.awnings 0 fun e => { e with state := .partially }
    pulse := { coach.pulse with inputs := upd coach.pulse.inputs 8 fun h => { h with count := 200 } } }

theorem witness_AwningMoveStarts :
    Hears 2 shaded ∧ shaded.control.mode = .ready ∧ AtRest shaded ∧ DriveAwayAgrees shaded
      ∧ permits 2 .moveAwning shaded = true ∧ KindAsked.default ≠ .jog
      ∧ (∀ a : Awning, shaded.awnings[a].homed = true ∧ shaded.awnings[a].fault.kind = none)
      ∧ shaded.awnings[(0 : Awning)].state ≠ .stowed
      ∧ chassisCondition shaded = .parked ∧ shaded.control.settingsDefaulted = false
      ∧ shaded.wind.lockoutDue = none ∧ shaded.settings.awningAmps ≤ budget shaded :=
  ⟨hears_of (by decide), by decide, by unfold AtRest; decide, by unfold DriveAwayAgrees AlarmFollows; decide, by decide⟩

theorem witness_JackMoveStarts :
    Hears 0 coach ∧ coach.control.mode = .ready ∧ AtRest coach ∧ DriveAwayAgrees coach ∧ coach.level.state ≠ .holding
      ∧ permits 0 .moveJack coach = true ∧ KindAsked.oneTouch ≠ .jog ∧ chassisCondition coach = .parked
      ∧ coach.control.settingsDefaulted = false ∧ (∀ j : Jack, coach.jacks[j].fault.kind = none)
      ∧ coach.pumpFault.kind = none ∧ supportSlidesStowed coach = true ∧ coach.settings.pumpAmps ≤ budget coach
      ∧ (∀ j : Jack, jackStroke j coach + 3 < coach.settings.maxStroke[j]) :=
  ⟨coach_hears 0, rfl, coach_atRest, coach_driveAway, by decide⟩

/-- A retract of a jack that is down, and of one that is up already (log 68). -/
theorem witness_JackMoveStarts_inward :
    (let s := { levelledCoach with slides := coach.slides, level := coach.level };
      Hears 0 s ∧ AtRest s ∧ DriveAwayAgrees s ∧ supportSlidesStowed s = true ∧ ∀ j : Jack, 50 < jackStroke j s)
    ∧ ¬50 < jackStroke 2 coach ∧ coach.jacks[(2 : Jack)].state = jackRest 2 coach
    ∧ coach.drive[pumpOutput].applied = 0 ∧ coach.drive[extendValve 2].applied = 0
    ∧ coach.drive[retractValve 2].applied = 0 :=
  ⟨⟨hears_of (by decide), by unfold AtRest; decide, by unfold DriveAwayAgrees AlarmFollows; decide, by decide⟩, by decide⟩

/-- The coach with every jack stopped at one stroke. -/
def atStroke (v : Int) : State :=
  { coach with
    jacks := Vector.replicate 6 { state := if v ≤ 50 then .stowed else .deployed }
    sampler := { coach.sampler with
      slots := updAll coach.sampler.slots fun k r => { r with lastValid := if 8 ≤ k.val ∧ k.val ≤ 13 then v else 0 } } }

/-- Strokes 50 and 51, and 3497 and 3496 of 3500, lie either side of a jack's two ends. -/
theorem witness_JackMoveStarts_bounds :
    ∀ v ∈ [50, 51, 3496, 3497], Hears 0 (atStroke v) ∧ AtRest (atStroke v) ∧ DriveAwayAgrees (atStroke v)
      ∧ (atStroke v).jacks[(2 : Jack)].state = jackRest 2 (atStroke v) ∧ jackStroke 2 (atStroke v) = v.toNat
      ∧ (atStroke v).settings.maxStroke[(2 : Jack)] = 3500 := by
  have h : ∀ v ∈ [50, 51, 3496, 3497], hearsNow 0 (atStroke v) = true ∧ AtRest (atStroke v)
      ∧ DriveAwayAgrees (atStroke v) ∧ (atStroke v).jacks[(2 : Jack)].state = jackRest 2 (atStroke v)
      ∧ jackStroke 2 (atStroke v) = v.toNat ∧ (atStroke v).settings.maxStroke[(2 : Jack)] = 3500 := by
    unfold AtRest DriveAwayAgrees AlarmFollows; decide
  exact fun v hv => ⟨hears_of (h v hv).1, (h v hv).2⟩

/-- In Service on its jacks, slide 4 and awning A1 not homed. -/
def jogging : State :=
  { levelledCoach with
    control := serviced.control, level := coach.level
    slides := upd coach.slides 3 fun e => { e with state := .unhomed, homed := false }
    awnings := upd coach.awnings 0 fun e => { e with state := .unhomed, homed := false } }

theorem witness_jogs :
    Hears 0 jogging ∧ jogging.control.mode = .service ∧ jogging.control.serviceOwner = some 0 ∧ AtRest jogging
      ∧ DriveAwayAgrees jogging ∧ permits 0 .moveSlide jogging = true ∧ permits 0 .moveAwning jogging = true
      ∧ permits 0 .moveJack jogging = true ∧ (∀ d, SlideMayJog 3 d { jogging with awnings := coach.awnings })
      ∧ (∀ i : Slide, jogging.slides[i].fault.kind = none) ∧ (∀ a : Awning, jogging.awnings[a].fault.kind = none)
      ∧ (∀ j : Jack, jogging.jacks[j].fault.kind = none) ∧ jogging.pumpFault.kind = none
      ∧ chassisCondition jogging = .parked ∧ jogging.control.settingsDefaulted = false ∧ jogging.wind.lockoutDue = none
      ∧ supportSlidesStowed { jogging with slides := coach.slides } = true
      ∧ jogging.settings.slideAmps ≤ budget jogging ∧ jogging.settings.awningAmps ≤ budget jogging
      ∧ jogging.settings.pumpAmps ≤ budget jogging ∧ (slideSkew 3 jogging).natAbs ≤ 8
      ∧ jogging.level.state ≠ .holding
      ∧ (∀ j : Jack, 50 < jackStroke j jogging ∧ jackStroke j jogging + 3 < jogging.settings.maxStroke[j]) :=
  ⟨hears_of (by decide), rfl, rfl, by unfold AtRest; decide, by unfold DriveAwayAgrees AlarmFollows; decide,
    by decide, by decide, by decide,
    fun d => by unfold SlideMayJog; cases d <;> decide, by decide⟩

theorem witness_LevelBeginsTouchdown :
    Hears 0 coach ∧ coach.control.mode = .ready ∧ AtRest coach ∧ DriveAwayAgrees coach
      ∧ permits 0 .moveJack coach = true ∧ chassisCondition coach = .parked
      ∧ coach.control.settingsDefaulted = false ∧ (∀ j : Jack, coach.jacks[j].fault.kind = none)
      ∧ coach.pumpFault.kind = none ∧ attitudeValid coach = true ∧ tooSteep coach = false
      ∧ coach.settings.pumpAmps ≤ budget coach ∧ jacksAllContact coach = false :=
  ⟨coach_hears 0, rfl, coach_atRest, coach_driveAway, by decide⟩

/-- One jack down, on the ground, with a fault. -/
def propped : State :=
  { coach with
    jacks := upd coach.jacks 3 fun e =>
      { e with state := .deployed, fault := ⟨some .sensor, false, Vector.replicate 4 false⟩ } }

theorem witness_JacksUpBeginsRetracting :
    Hears 0 propped ∧ propped.control.mode = .ready ∧ AtRest propped ∧ DriveAwayAgrees propped
      ∧ permits 0 .moveJack propped = true ∧ chassisCondition propped ≠ .travel ∧ propped.pumpFault.kind = none
      ∧ supportSlidesStowed propped = true ∧ propped.settings.pumpAmps ≤ budget propped
      ∧ ∃ j : Jack, propped.jacks[j].state ≠ .stowed :=
  ⟨hears_of (by decide), rfl, by unfold AtRest; decide, by unfold DriveAwayAgrees AlarmFollows; decide, by decide⟩

/-- A link's hold session of slide 1, moving, its keep deadline at 300 ms. -/
def hold (d : Dir) (phase : Phase) : Session :=
  { cover := .one (.slide 0), op := .move, owner := .link 0, origin := .link, kind := .hold, dir := some d
    target := none, creep := false, jogged := false, phase := phase, keepDue := some (ms 300)
    runLimit := seconds 90, runLeft := seconds 90, runFrom := if phase = .running then some 0 else none
    pendingEnd := none }

/-- Slide 1 moving at a position, both motors driven and watched. -/
def sliding (d : Dir) (count : Nat) : State :=
  { coach with
    control := { coach.control with idleDue := none }
    sessions := [hold d .running]
    slides := upd coach.slides 0 fun e => { e with state := match d with | .outward => .movingOut | .inward => .movingIn }
    drive := updAll coach.drive fun o r =>
      if o.val < 2 then { r with applied := 450, dir := some d, lastDir := some d } else r
    pulse := { coach.pulse with
      inputs := updAll coach.pulse.inputs fun p h =>
        if p.val < 2 then { h with count := count, stallStart := some 0 } else h }
    supply := { coach.supply with allotments := [⟨.session (.one (.slide 0)), 44, some 1⟩], nextOrder := 2 } }

/-- The condition of the chassis in `coach` with another record. -/
def chassis (r : ChassisRecord) (current : Bool) : State :=
  { coach with interlock := ⟨some r, current, none, false, false⟩ }

/-- For each check after NOT_PARKED a state, a channel, a direction and the reason. -/
def turnedAway : List (State × Channel × Dir × Reason) :=
  let parked := { coach with settings := { coach.settings with permissions := Vector.replicate 4 0b111111 } }
  let standing := fun n : Nat => { parked with
    pulse := { parked.pulse with inputs := upd parked.pulse.inputs 8 fun h => { h with count := n } } }
  [({ parked with control := { parked.control with settingsDefaulted := true } }, .jack 0, .outward, .configDefaulted),
   ({ parked with jacks := upd parked.jacks 0 fun e => { e with fault := { kind := some .tiltGuard } } }, .jack 0, .outward,
     .faulted),
   ({ parked with pumpFault := { kind := some .overcurrent } }, .jack 0, .inward, .faulted),
   ({ parked with slides := upd parked.slides 0 fun e => { e with homed := false, state := .unhomed } }, .slide 0, .outward,
     .unhomed),
   ({ parked with wind := { parked.wind with lockoutDue := some (minutes 10) } }, .awning 0, .outward, .windLockout),
   (standing 151, .slide 0, .outward, .noSupport),
   ({ parked with slides := upd parked.slides 0 fun e => { e with state := .extended } }, .jack 0, .inward, .slidesOut),
   (standing 151, .slide 0, .inward, .awningClear),
   ({ parked with sessions := [hold .inward .waiting] }, .awning 0, .outward, .slideMoving)]

theorem witness_MoveIsTurnedAway :
    Hears 0 coach ∧ coach.control.mode = .ready ∧ permits 3 (movePermission (.slide 0)) coach = false
      ∧ permits 0 (movePermission (.slide 0)) coach = true ∧ KindAsked.hold ≠ .jog
      ∧ homed (.slide 0) coach = true ∧ sessionOn (.slide 0) coach = none
      ∧ min (0 : Word).toNat (channelEnd (.slide 0) coach) ≤ position (.slide 0) coach
      ∧ position (.slide 0) coach ≤ min (65535 : Word).toNat (channelEnd (.slide 0) coach)
      ∧ sessionOn (.slide 0) (sliding .outward 100) = some (hold .outward .running)
      ∧ (hold .outward .running).owner ≠ .link 1
      ∧ chassisCondition travelling = .travel
      ∧ chassisCondition (chassis ⟨.on, true, .park, 0, true⟩ false) = .unknown
      ∧ chassisCondition (chassis ⟨.on, true, .other, 0, true⟩ true) = .unparked :=
  ⟨coach_hears 0, by decide⟩

theorem witness_MoveIsTurnedAway_hears :
    Hears 1 (sliding .outward 100) ∧ Hears 0 travelling
      ∧ ∀ r current, Hears 0 (chassis r current) :=
  ⟨hears_of (by decide), hears_of (by decide), fun _ _ => hears_of rfl⟩

/-- BAD_STATE from another link than the Service owner, and each check of R77 that turns a new MOVE away, at the edge of its
range. -/
theorem witness_MoveIsTurnedAway_checks :
    Hears 1 serviced ∧ serviced.control.serviceOwner ≠ some 1 ∧ permits 1 .moveSlide serviced = true
      ∧ (turnedAway.all fun (x, c, d, r) => hearsNow 0 x && decide (x.control.mode = .ready)
        && permits 0 (movePermission c) x && decide (sessionOn c x = none)
        && decide (interlock false ⟨.one c, .move, some d, .hold, none⟩ x = some r)) = true :=
  ⟨hears_of (by decide), by decide, by decide, by decide⟩

theorem witness_StopEndsSessions :
    Hears 0 (sliding .outward 100) ∧ (sliding .outward 100).level.deferred = false
      ∧ sessionOn (.slide 1) (sliding .outward 100) = none
      ∧ (sliding .outward 100).sessions = [hold .outward .running]
      ∧ (hold .outward .running).cover = .one (.slide 0) ∧ (hold .outward .running).op = .move
      ∧ (hold .outward .running).origin = .link ∧ (hold .outward .running).phase = .running
      ∧ (sliding .outward 100).program.run = none ∧ (sliding .outward 100).supply.queue = []
      ∧ pumpAllotted (sliding .outward 100) = false :=
  ⟨hears_of (by decide), by decide⟩

/-! ### Witnesses: program runs -/

/-- Program 1 points at step 1, a CONFIRM whose chain is invalid no more. -/
def confirmFirst : State :=
  { coach with settings := { coach.settings with programs := upd coach.settings.programs 2 fun _ => some 13 } }

theorem witness_RunProgramBegins :
    Hears 0 confirmFirst ∧ Hears 3 coach ∧ permits 3 .sequence coach = false ∧ permits 0 .sequence confirmFirst = true
      ∧ Hears 0 serviced ∧ permits 0 .sequence serviced = true ∧ serviced.control.mode = .service
      ∧ confirmFirst.control.mode = .ready ∧ 4 ≤ (4 : Byte).toNat ∧ (2 : Byte).toNat < 4
      ∧ (2 : Fin 4).val = (2 : Byte).toNat ∧ confirmFirst.program.run = none
      ∧ chainOf 2 confirmFirst = some [13] ∧ confirmFirst.settings.pool[(13 : StepIndex)].kind = .confirm
      ∧ chainOf 3 confirmFirst = none :=
  ⟨hears_of (by decide), coach_hears 3, by decide, by decide, hears_of (by decide), by decide⟩

/-- A run of Link 1 suspended at the CONFIRM of the default program 0, all before it done. -/
def waitingRun (suspended : Bool) (last : StepStatus) : State :=
  { coach with
    control := { coach.control with idleDue := none }
    program := { coach.program with
      run := some {
        program := 0, owner := 0, suspended := suspended, steps := [⟨0, .done⟩, ⟨1, last⟩], reason := some .confirm
        keepDue := ms 300, pair := none, pairWaits := false, suspendOwed := false } } }

theorem witness_RunRequestsEndTheRun :
    Hears 0 (waitingRun true .pending) ∧ Hears 1 (waitingRun true .pending) ∧ Hears 0 (waitingRun false .running)
      ∧ Hears 0 (waitingRun true .running) ∧ Hears 3 coach ∧ Hears 0 coach
      ∧ permits 3 .sequence coach = false ∧ permits 0 .sequence coach = true ∧ coach.program.run = none
      ∧ permits 1 .sequence (waitingRun true .pending) = true ∧ permits 0 .sequence (waitingRun true .pending) = true
      ∧ (waitingRun true .pending).control.mode = .ready ∧ (waitingRun true .pending).level.deferred = false
      ∧ StepStatus.pending ∈ [StepStatus.pending, .interrupted, .failed, .paused]
      ∧ (waitingRun true .pending).settings.pool[(1 : StepIndex)].kind = .confirm
      ∧ (waitingRun true .pending).sessions = [] :=
  ⟨hears_of (by decide), hears_of (by decide), hears_of (by decide), hears_of (by decide), coach_hears 3, coach_hears 0,
    by decide⟩

theorem witness_RunRequestsEndTheRun_last :
    ∀ (n : Nat) (y : RunStep), ([⟨0, .done⟩, ⟨1, .pending⟩] : List RunStep)[n]? = some y → n ≠ 1 →
      y.status = .done ∨ y.status = .skipped := by
  intro n y h hn
  match n with
  | 0 => left; simp at h; subst h; rfl
  | 1 => exact absurd rfl hn
  | n + 2 => simp at h

/-! ### Witnesses: the sampler -/

theorem witness_FrameUpdatesSlots :
    Settled coach ∧ AtRest coach ∧ coach.level.state = .idle ∧ coach.sampler.running = true :=
  ⟨coach_settled, coach_atRest, rfl, rfl⟩

/-- One more value out of the window, or at the threshold, and a slot's limit is met. -/
def nearLimits : State :=
  { coach with
    sampler := { coach.sampler with
      slots := updAll coach.sampler.slots fun k _ => ⟨0, true, 2, if k.val = 15 then 2 else 4, false⟩ } }

theorem witness_SlotLimitsTakeEffect :
    Settled nearLimits ∧ AtRest nearLimits ∧ nearLimits.level.state = .idle ∧ nearLimits.sampler.running = true
      ∧ chassisMoving nearLimits = false ∧ nearLimits.interlock.driveAway = false
      ∧ (∀ slot : Slot, nearLimits.sampler.slots[slot].outCount = 2)
      ∧ hasExceedance 15 = true ∧ hasExceedance (pressureSlot 5) = true
      ∧ (∀ slot : Slot, hasExceedance slot = true → nearLimits.sampler.slots[slot].tripped = false
          ∧ nearLimits.sampler.inForce[slot].tripCount ≤ nearLimits.sampler.slots[slot].counter + 1) :=
  ⟨settled_of (by decide), by unfold AtRest; decide, by decide⟩

/-- A link's level run over the six jacks. -/
def levelRun : Session :=
  { cover := .allJacks, op := .level, owner := .link 0, origin := .link, kind := .oneTouch, dir := none
    target := none, creep := false, jogged := false, phase := .running, keepDue := none
    runLimit := seconds 60, runLeft := seconds 60, runFrom := some 0, pendingEnd := none }

/-- The coach on its jacks with a level run in a state of the controller. -/
def levelling (state : LevelState) (passes : Nat) : State :=
  { levelledCoach with
    control := { levelledCoach.control with idleDue := none }
    sessions := [levelRun]
    drive := upd levelledCoach.drive pumpOutput fun r => { r with applied := 1000 }
    supply := { levelledCoach.supply with allotments := [⟨.pump [.allJacks], 140, some 1⟩], nextOrder := 2 }
    level := { levelledCoach.level with
      state := state, passLimit := 4, passes := passes, hangCount := Vector.replicate 6 4, settleDue := some (ms 1500) } }

theorem witness_CountsAtTheirLimitTakeEffect :
    Settled (levelling .lift 0) ∧ lifting (levelling .lift 0) = true
      ∧ (∀ j : Jack, (levelling .lift 0).level.hanging[j] = false ∧ 4 ≤ (levelling .lift 0).level.hangCount[j])
      ∧ Settled levelledCoach ∧ AtRest levelledCoach
      ∧ levelledCoach.level.state = .holding ∧ 299 ≤ levelledCoach.level.drift
      ∧ levelledCoach.settings.autoRelevel = false :=
  ⟨settled_of (by decide), by decide, by decide, levelledCoach_settled,
    by unfold AtRest; decide, by decide⟩

/-- A frame at level, of strokes and pressures 0 and 13.3 V. -/
def plainFrame : RawFrame :=
  Vector.ofFn fun i => Vector.replicate 32 (if i.val = 14 then 2724 else if i.val = 15 then 0 else 2048)

/-- A lift with every jack on its way to a target, judged against a pitch target. -/
def liftingTo (target : Nat) (pitch : Int) : State :=
  { levelling .lift 1 with
    level := { (levelling .lift 1).level with
      plan := Vector.replicate 6 ⟨0, target, 300, 500, true, false⟩, guardPitch := pitch } }

theorem witness_FrameUpdatesSlots_lift :
    (∀ target pitch, Settled (liftingTo target pitch) ∧ (liftingTo target pitch).sessions = [levelRun]
      ∧ (liftingTo target pitch).level.state = .lift ∧ (liftingTo target pitch).sampler.running = true
      ∧ (liftingTo target pitch).control.mode = .ready ∧ (liftingTo target pitch).program.run = none)
    ∧ (∀ slot : Slot, slotValue slot (liftingTo 300 0).sampler.inForce[slot] plainFrame[slot] ≠ none)
    ∧ chassisMoving (liftingTo 300 0) = false ∧ (liftingTo 300 0).interlock.driveAway = false
    ∧ (liftingTo 300 0).level.deferred = false
    ∧ slotValue 15 (liftingTo 300 0).sampler.inForce[(15 : Slot)] plainFrame[(15 : Slot)] = some 0
    ∧ slotValue 14 (liftingTo 300 0).sampler.inForce[(14 : Slot)] plainFrame[(14 : Slot)] = some 1330
    ∧ slotValue (strokeSlot 0) (liftingTo 300 0).sampler.inForce[strokeSlot 0] plainFrame[strokeSlot 0] = some 0
    ∧ (liftingTo 3 0).level.plan[(0 : Jack)].target ≤ 0 + 3 ∧ ¬(liftingTo 4 0).level.plan[(0 : Jack)].target ≤ 0 + 3
    ∧ (liftingTo 300 101).level.basePitch + 100 < (0 - (liftingTo 300 101).level.guardPitch).natAbs :=
  ⟨fun _ _ => ⟨settled_of rfl, rfl, rfl, rfl, rfl, rfl⟩, by decide⟩

/-- The supply's dwell counts one short of their limit. -/
def dwelling (x : SupplyState) : State :=
  { coach with supply := { coach.supply with state := x, fallCount := 49, riseCount := 49 } }

theorem witness_CountsAtTheirLimitTakeEffect_supply :
    ∀ x, Settled (dwelling x) ∧ AtRest (dwelling x) ∧ supplyValid (dwelling x) = true
      ∧ (dwelling x).supply.state = x ∧ 49 ≤ (dwelling x).supply.fallCount ∧ 49 ≤ (dwelling x).supply.riseCount :=
  fun x => ⟨settled_of rfl, by unfold AtRest; exact ⟨rfl, rfl, rfl, rfl, rfl⟩, rfl, rfl, (by decide : 49 ≤ 49), (by decide : 49 ≤ 49)⟩

/-! ### Witnesses: outputs and pulse inputs -/

/-- The coach with one output's record changed. -/
def driving (o : Output) (f : DriveOutput → DriveOutput) : State := { coach with drive := upd coach.drive o f }

theorem driving_settled (o : Output) (f : DriveOutput → DriveOutput) : Settled (driving o f) := settled_of rfl

theorem witness_BoundaryAppliesDuty :
    (let s := driving 0 fun r => { r with dir := some .outward, buffered := some 200 };
      s.drive[(0 : Output)].pendingDir = none ∧ s.drive[(0 : Output)].dir = some .outward
        ∧ s.drive[(0 : Output)].buffered = some 200 ∧ s.pulse.inputs[(0 : Hall)].coast = none)
    ∧ (let s := driving 9 fun r => { r with applied := 800, dir := some .outward, pendingDir := some .inward };
      channelOfOutput 9 = some (.awning 1) ∧ sessionOn (.awning 1) s = none
        ∧ s.drive[(9 : Output)].pendingDir = some .inward ∧ s.drive[(9 : Output)].applied ≠ 0)
    ∧ (let s := driving 9 fun r => { r with dir := some .outward, pendingDir := some .inward };
      sessionOn (.awning 1) s = none ∧ s.drive[(9 : Output)].pendingDir = some .inward
        ∧ s.drive[(9 : Output)].applied = 0)
    ∧ (let s := driving 10 fun r => { r with applied := 999, buffered := some 1000 };
      s.drive[pumpOutput].dir = none ∧ s.drive[pumpOutput].buffered = some 1000)
    ∧ (let s := driving 16 fun r => { r with buffered := some 600 };
      s.drive[(16 : Output)].dir = none ∧ s.drive[(16 : Output)].buffered = some 600)
    ∧ (let s := driving 17 fun r => { r with buffered := some 1000 };
      s.drive[(17 : Output)].dir = none ∧ s.drive[(17 : Output)].buffered = some 1000
        ∧ s.drive[(17 : Output)].applied = 0)
    ∧ (let s := driving 22 fun r => { r with applied := 1000, pullInAt := some 0 };
      s.drive[(22 : Output)].dir = none ∧ s.drive[(22 : Output)].buffered = none
        ∧ s.drive[(22 : Output)].pullInAt = some 0) := by
  decide

/-- The coach with one pulse input's record changed. -/
def pulsing (p : Hall) (f : HallInput → HallInput) : State :=
  { coach with pulse := { coach.pulse with inputs := upd coach.pulse.inputs p f } }

theorem witness_HallEdgeCountsOrIsStray :
    (∀ p f, Settled (pulsing p f) ∧ (pulsing p f).sessions = [] ∧ (pulsing p f).pulse.offSince = none)
    ∧ (let s := pulsing 8 fun h => { h with count := 32000, coast := some ⟨.outward, ms 200⟩ };
      s.drive[servingOutput 8].applied = 0
        ∧ ∃ w, s.pulse.inputs[(8 : Hall)].coast = some w ∧ w.dir = .outward)
    ∧ (let s := pulsing 0 fun h => { h with stray := 8 };
      s.drive[servingOutput 0].applied = 0 ∧ s.pulse.inputs[(0 : Hall)].coast = none
        ∧ (∀ o, otherOutput 0 = some o → s.drive[o].applied = 0)
        ∧ s.pulse.inputs[(0 : Hall)].stray = 8 ∧ homed (channelOfHall 0) s = true)
    ∧ (let s := pulsing 0 fun h => { h with stray := 9 };
      s.pulse.inputs[(0 : Hall)].stray ≠ 8 ∧ s.pulse.inputs[(0 : Hall)].stray ≤ 9) :=
  ⟨fun _ _ => ⟨settled_of rfl, rfl, rfl⟩, ⟨by decide, ⟨_, rfl, rfl⟩⟩,
    ⟨by decide, by decide, fun o h => by simp [otherOutput] at h; subst h; decide, by decide, by decide⟩, by decide⟩

theorem witness_HallEdgeCountsOrIsStray_driven :
    let s := driving 0 fun r => { r with applied := 450, dir := some .inward }
    Settled s ∧ s.sessions = [] ∧ s.pulse.offSince = none
      ∧ s.drive[servingOutput 0].applied ≠ 0 ∧ s.drive[servingOutput 0].dir = some .inward :=
  ⟨driving_settled _ _, by decide⟩

theorem sliding_settled (d : Dir) (count : Nat) : Settled (sliding d count) := by
  cases d <;> exact settled_of rfl

/-- Awning A1 retracting at a count. -/
def retracting (count : Nat) : State :=
  { travelling with
    drive := upd coach.drive 8 fun r => { r with applied := 800, dir := some .inward }
    pulse := { coach.pulse with
      inputs := upd coach.pulse.inputs 8 fun h => { h with count := count, stallStart := some 0 } } }

theorem witness_StallsAreJudged :
    (∀ d count, Settled (sliding d count) ∧ (sliding d count).control.mode = .ready
      ∧ (sliding d count).sessions = [hold d .running] ∧ (sliding d count).program.run = none
      ∧ (sliding d count).level.deferred = false)
    ∧ (let s := pulsing 9 fun h => { h with stallStart := some 0 };
      stallDue 9 s = some (ms 400) ∧ sessionOn (channelOfHall 9) s = none)
    ∧ Settled (retracting 200) ∧ (retracting 200).control.mode = .ready
    ∧ stallDue 8 (retracting 200) = some (ms 400) ∧ (8 : Hall) = awningHall 0
    ∧ (retracting 200).sessions.map (·.phase) = [.running] ∧ awningPosition 0 (retracting 200) ≤ 200
    ∧ (retracting 200).drive[awningOutput 0].applied ≠ 0
    ∧ stallDue 0 (sliding .inward 400) = some (ms 400) ∧ channelOfHall 0 = .slide 0
    ∧ (sliding .inward 400).slides[(0 : Slide)].seating = .none ∧ slidePosition 0 (sliding .inward 400) ≤ 400
    ∧ stallDue 1 (sliding .outward 9199) = some (ms 400)
    ∧ (sliding .outward 9199).slides[(0 : Slide)].homed = true
    ∧ slidePosition 0 (sliding .outward 9199) + 400 < (sliding .outward 9199).settings.slideFull[(0 : Slide)] :=
  ⟨fun d count => ⟨sliding_settled d count, rfl, rfl, rfl, rfl⟩, by decide, settled_of (by decide),
    by decide⟩

/-- One motor of slide 1 seated, the seat timer running. -/
def seatedOne : State :=
  { sliding .inward 2 with
    slides := upd (sliding .inward 2).slides 0 fun e => { e with seating := .oneSeated .front (ms 1500) } }

theorem witness_StallsAreJudged_seat :
    Settled seatedOne ∧ seatedOne.control.mode = .ready ∧ seatedOne.sessions = [hold .inward .running]
      ∧ seatDue 0 seatedOne = some (ms 1500) :=
  ⟨settled_of (by decide), by decide⟩

/-- Slide 1 moving with its front count ahead, and a target. -/
def leading (d : Dir) (front rear : Nat) (target : Option Nat) : State :=
  { sliding d rear with
    sessions := [{ hold d .running with target := target }]
    pulse := { (sliding d rear).pulse with
      inputs := upd (sliding d rear).pulse.inputs 0 fun h => { h with count := front } } }

theorem witness_HallEdgeCountsOrIsStray_session :
    (∀ d front rear target, Settled (leading d front rear target) ∧ (leading d front rear target).pulse.offSince = none
      ∧ (leading d front rear target).sessions = [{ hold d .running with target := target }]
      ∧ (leading d front rear target).control.mode ≠ .sleep ∧ (leading d front rear target).program.run = none
      ∧ (leading d front rear target).level.deferred = false)
    ∧ (leading .outward 219 100 none).drive[servingOutput 0].applied ≠ 0
    ∧ (leading .outward 219 100 none).drive[servingOutput 0].dir = some .outward
    ∧ (leading .outward 219 100 none).slides[(0 : Slide)].state = .movingOut
    ∧ 120 ≤ (220 - 100 : Int).natAbs ∧ (219 - 100 : Int).natAbs < 120
    ∧ (leading .outward 500 500 (some 500)).slides[(0 : Slide)].homed = true ∧ 500 ≤ (501 + 500) / 2
    ∧ (leading .inward 500 500 (some 401)).slides[(0 : Slide)].state = .movingIn ∧ ¬(499 + 500) / 2 ≤ 401 := by
  refine ⟨fun d _ _ _ => ?_, by decide⟩
  cases d <;> exact ⟨settled_of rfl, rfl, rfl, (by decide : DeviceMode.ready ≠ .sleep), rfl, rfl⟩

/-- The third row of 03 R47: a seated motor at 0, its coast window closed, while its partner pulls. -/
theorem witness_HallEdgeCountsOrIsStray_partner :
    let s := { seatedOne with drive := upd seatedOne.drive 0 fun r => { r with applied := 0 } }
    s.drive[servingOutput 0].applied = 0 ∧ s.pulse.inputs[(0 : Hall)].coast = none ∧ otherOutput 0 = some 1
      ∧ s.drive[(1 : Output)].applied ≠ 0 ∧ s.drive[(1 : Output)].dir = some .inward := by
  decide

/-! ### Witnesses: wind -/

/-- The anemometer's last edge at time 0, the clock elsewhere. -/
def windy (now : Nat) (gusts : Nat) : State :=
  { shaded with
    now := now, wind := { shaded.wind with gusts := gusts }
    pulse := { shaded.pulse with wind := { shaded.pulse.wind with lastEdge := some 0 } } }

theorem witness_WindEdgesAreSampled :
    (∀ now gusts, Settled (windy now gusts) ∧ (windy now gusts).pulse.wind.on = true
      ∧ (windy now gusts).pulse.wind.lastEdge = some 0 ∧ (windy now gusts).pulse.wind.quiet = false)
    ∧ coach.pulse.wind.lastEdge = none
    ∧ (windy 999 0).now - 0 < ms 1 ∧ ms 1 ≤ (windy 1000 0).now - 0 ∧ (windy (ms 3000) 0).now - 0 ≤ ms 3000
    ∧ ms 3000 < (windy 3000001 0).now - 0
    ∧ (windy 1000 1).wind.gusts + 1 < (windy 1000 1).settings.windTripCount :=
  ⟨fun _ _ => ⟨settled_of rfl, rfl, rfl, rfl⟩, by decide⟩

theorem witness_WindTripRetractsAwnings :
    Settled (windy 0 2) ∧ (windy 0 2).control.mode = .ready ∧ AtRest (windy 0 2) ∧ (windy 0 2).pulse.wind.on = true
      ∧ (windy 0 2).settings.windTripCount ≤ (windy 0 2).wind.gusts + 1
      ∧ (windy 0 2).awnings[(0 : Awning)].state ≠ .stowed :=
  ⟨settled_of (by decide), by decide, by unfold AtRest; decide, by decide⟩

/-! ### Witnesses: timers -/

/-- A link's session of jack 1, running since time 0. -/
def jackHold : Session :=
  { hold .outward .running with cover := .one (.jack 0), runLimit := seconds 60, runLeft := seconds 60 }

def jacking : State :=
  { coach with
    control := { coach.control with idleDue := none }
    sessions := [jackHold]
    drive := upd (upd coach.drive pumpOutput fun r => { r with applied := 1000 }) (extendValve 0) fun r =>
      { r with applied := 600 }
    supply := { coach.supply with allotments := [⟨.pump [.one (.jack 0)], 140, some 1⟩], nextOrder := 2 } }

/-- Slide 1's session waiting for current since time 0. -/
def queued : State :=
  { coach with
    control := { coach.control with idleDue := none }
    sessions := [hold .outward .waiting]
    slides := updAll coach.slides fun _ e => { e with wasStowed := true }
    supply := { coach.supply with queue := [⟨.session (.one (.slide 0)), 44, 0⟩] } }

theorem witness_SessionTimersEndSessions :
    Settled (sliding .outward 100) ∧ (sliding .outward 100).control.mode = .ready
      ∧ (sliding .outward 100).sessions = [hold .outward .running] ∧ (hold .outward .running).op = .move
      ∧ (hold .outward .running).origin = .link ∧ (sliding .outward 100).program.run = none
      ∧ (sliding .outward 100).level.deferred = false ∧ (hold .outward .running).keepDue = some (ms 300)
      ∧ (sliding .outward 100).drive[frontOutput 0].applied ≠ 0
      ∧ (hold .outward .running).runFrom = some 0 ∧ (hold .outward .running).kind = .hold
      ∧ Settled jacking ∧ jacking.control.mode = .ready ∧ jacking.sessions = [jackHold]
      ∧ jackHold.cover = .one (.jack 0) ∧ jackHold.phase = .running ∧ jackHold.runFrom = some 0
      ∧ jacking.drive[extendValve 0].applied ≠ 0 :=
  ⟨sliding_settled _ _, by decide, by decide, by decide, by decide, by decide, by decide, by decide,
    by decide, by decide, by decide, settled_of (by decide), by decide⟩

theorem witness_SessionTimersEndSessions_waiting :
    Settled queued ∧ queued.control.mode = .ready ∧ queued.sessions = [hold .outward .waiting]
      ∧ (hold .outward .waiting).cover = .one (.slide 0) ∧ (hold .outward .waiting).phase = .waiting
      ∧ queued.supply.queue = [⟨.session (hold .outward .waiting).cover, 44, 0⟩] ∧ queued.supply.allotments = []
      ∧ queued.slides[(0 : Slide)].state = slideRest 0 queued ∧ queued.slides[(0 : Slide)].seating = .none
      ∧ (hold .outward .waiting).keepDue = some (ms 300) :=
  ⟨settled_of (by decide), by decide⟩

/-- Everything that merely runs out, due at 5 s. -/
def timing : State :=
  { coach with
    control := { coach.control with wake := some ⟨seconds 5, false⟩ }
    interlock := { coach.interlock with staleDue := some (seconds 5) }
    wind := { coach.wind with lockoutDue := some (seconds 5) }
    pulse := { coach.pulse with
      inputs := upd coach.pulse.inputs 4 fun h => { h with coast := some ⟨.inward, seconds 5⟩ } } }

theorem witness_PlainTimersRunOut :
    Settled timing ∧ timing.pulse.inputs[(4 : Hall)].coast = some ⟨.inward, seconds 5⟩
      ∧ timing.wind.lockoutDue = some (seconds 5) ∧ timing.interlock.staleDue = some (seconds 5)
      ∧ timing.control.mode ≠ .service ∧ timing.sessions = [] ∧ DriveAwayAgrees timing
      ∧ timing.control.wake = some ⟨seconds 5, false⟩ :=
  ⟨settled_of (by decide), by unfold DriveAwayAgrees AlarmFollows; decide⟩

/-- Moving by its last record, with drive-away left true by a motion reset that stowed the last channel. -/
theorem witness_PlainTimersRunOut_stale :
    (let s := { timing with interlock := ⟨some ⟨.off, false, .other, 10, true⟩, true, some (seconds 5), true, true⟩ };
      Settled s ∧ AlarmFollows s ∧ ¬DriveAwayAgrees s ∧ chassisCondition s ≠ .unknown ∧ driveAwayHolds s = false
        ∧ s.interlock.staleDue = some (seconds 5)) :=
  ⟨settled_of (by decide), by unfold AlarmFollows; decide, by unfold DriveAwayAgrees AlarmFollows; decide, by decide⟩

theorem witness_SettleMeasurementDecidesRun :
    Settled (levelling .settle 4) ∧ (levelling .settle 4).control.mode = .ready
      ∧ (levelling .settle 4).sessions = [levelRun] ∧ levelRun.cover = .allJacks ∧ levelRun.op = .level
      ∧ levelRun.origin = .link ∧ levelRun.phase = .running ∧ (levelling .settle 4).level.state = .settle
      ∧ (levelling .settle 4).level.settleDue = some (ms 1500) ∧ (levelling .settle 4).level.deferred = false
      ∧ (levelling .settle 4).program.run = none
      ∧ (levelling .settle 4).supply.allotments = [⟨.pump [.allJacks], 140, some 1⟩]
      ∧ (levelling .settle 4).supply.queue = []
      ∧ (∀ j : Jack, (levelling .settle 4).jacks[j].state = .contact ∧ contact j (levelling .settle 4) = true
          ∧ (levelling .settle 4).drive[extendValve j].applied = 0
          ∧ (levelling .settle 4).drive[retractValve j].applied = 0)
      ∧ (levelling .settle 4).level.passes = (levelling .settle 4).level.passLimit :=
  ⟨settled_of (by decide), by decide⟩

/-- A settle measurement with a jack off its pad, and one a degree from the pitch target with passes left. -/
theorem witness_SettleMeasurementDecidesRun_goes_on :
    (let s := { levelling .settle 1 with jacks := upd levelledCoach.jacks 2 fun e => { e with state := .deployed } };
      Settled s ∧ chassisMoving s = false ∧ s.interlock.driveAway = false ∧ tooSteep s = false
        ∧ s.jacks[(2 : Jack)].state ≠ .contact)
    ∧ (let s := { levelling .settle 1 with level := { (levelling .settle 1).level with pitchTarget := 100 } };
      Settled s ∧ ¬((s.sampler.pitch.value - s.level.pitchTarget).natAbs ≤ s.settings.tolerance)
        ∧ s.level.passes ≠ s.level.passLimit ∧ (∀ j : Jack, s.jacks[j].state = .contact)
        ∧ ∃ j k : Jack, s.settings.jackX[j] ≠ s.settings.jackX[k]) :=
  ⟨⟨settled_of (by decide), by decide⟩, settled_of (by decide), by decide⟩

/-! ### Witnesses: chassis changes and resets over motion -/

/-- A frame that puts the gear in another place, at a stand, and one that reports a road speed. -/
theorem witness_ChassisStatusTakesRecord_motion :
    conditionOf (some ⟨.off, true, .other, 0, false⟩) true = .unparked
      ∧ conditionOf (some ⟨.off, false, .other, 10, true⟩) true = .travel
      ∧ Hears 3 (sliding .outward 100) ∧ Settled (sliding .outward 100)
      ∧ chassisCondition (sliding .outward 100) = .parked ∧ (hold .outward .running).motion.outward = true
      ∧ Hears 3 (sliding .inward 100) ∧ (hold .inward .running).motion.outward = false
      ∧ interlock true (hold .inward .running).motion { sliding .inward 100 with
          interlock := ⟨some ⟨.off, true, .other, 0, false⟩, true, some (seconds 2), true, true⟩ } = none
      ∧ Hears 3 serviced ∧ serviced.control.mode = .service ∧ DriveAwayAgrees serviced :=
  ⟨by decide, by decide, hears_of (by decide), sliding_settled _ _, by decide, by decide,
    hears_of (by decide), by decide, by decide, hears_of (by decide), rfl,
    by unfold DriveAwayAgrees AlarmFollows; decide⟩

theorem witness_ChassisStatusTakesRecord_ignition :
    Hears 3 shaded ∧ Settled shaded ∧ AtRest shaded ∧ DriveAwayAgrees shaded ∧ ignitionOn shaded = false
      ∧ (allAwnings.filter fun a => shaded.settings.autoRetract[a] && decide (shaded.awnings[a].state ≠ .stowed)) = [0]
      ∧ (allAwnings.filter fun a => coach.settings.autoRetract[a] && decide (coach.awnings[a].state ≠ .stowed)) = [] :=
  ⟨hears_of (by decide), settled_of (by decide), by unfold AtRest; decide, by unfold DriveAwayAgrees AlarmFollows; decide, by decide⟩

/-- Motion while a full reset's reply is sent. -/
def resetMoving : State :=
  { sliding .outward 100 with links := upd coach.links 0 fun r => { r with receiver := .reply false .fullReset } }

theorem witness_resets_end_motion :
    Settled resetMoving ∧ resetMoving.links[(0 : Link)].receiver = .reply false .fullReset
      ∧ resetMoving.sessions ≠ [] ∧ OneSessionEach resetMoving ∧ Hears 1 (sliding .outward 100)
      ∧ permits 1 .moveSlide (sliding .outward 100) = true ∧ (sliding .outward 100).control.mode ≠ .service :=
  ⟨settled_of rfl, by decide, by decide, by unfold OneSessionEach; decide,
    hears_of (by decide), by decide⟩

/-! ### Witnesses: motion that waits, is turned away, retargeted or reversed -/

/-- Awning A1 extending for Link 1, which draws an amperage. -/
def extending (amps : Nat) : State :=
  { shaded with
    control := { shaded.control with idleDue := none }
    sessions := [{ hold .outward .running with
      cover := .one (.awning 0), kind := .oneTouch, keepDue := none, runLimit := seconds 60, runLeft := seconds 60 }]
    awnings := upd shaded.awnings 0 fun e => { e with state := .extending }
    drive := upd coach.drive 8 fun r => { r with applied := 800, dir := some .outward }
    supply := { coach.supply with allotments := [⟨.session (.one (.awning 0)), amps, some 1⟩], nextOrder := 2 } }

/-- A queue with no place left. -/
def crowded (s : State) : State :=
  { s with supply := { s.supply with queue := List.replicate 8 ⟨.session (.one (.slide 3)), 150, 0⟩ } }

theorem witness_SlideMoveStarts_current :
    Hears 0 jacking ∧ Hears 0 (crowded jacking) ∧ Hears 0 (dwelling .critical)
      ∧ SlideMayMove 2 .inward jacking ∧ sessionOn (.slide 2) jacking = none
      ∧ jacking.settings.slideAmps ≤ budget jacking ∧ ¬jacking.settings.slideAmps ≤ remainder jacking
      ∧ jacking.supply.queue.length < 8 ∧ (crowded jacking).supply.queue.length = 8
      ∧ SlideMayMove 2 .inward (dwelling .critical)
      ∧ budget (dwelling .critical) < (dwelling .critical).settings.slideAmps := by
  refine ⟨hears_of (by decide), hears_of (by decide), hears_of (by decide), ?_, by decide, by decide, by decide,
    by decide, by decide, ?_, by decide⟩ <;> (unfold SlideMayMove SlideMayJog; decide)

theorem witness_SlideMoveStarts_own :
    (hold .outward .running).cover = .one (.slide 0) ∧ (hold .outward .running).phase ≠ .stopping
      ∧ Hears 0 (sliding .outward 401) ∧ Hears 0 queued ∧ (sliding .outward 401).slides[(0 : Slide)].seating = .none
      ∧ slidePosition 0 (sliding .outward 401) = 401 ∧ slidePosition 0 queued = 0
      ∧ SlideMayMove 0 .inward (sliding .outward 401) ∧ SlideMayMove 0 .inward queued
      ∧ DriveAwayAgrees (sliding .outward 401) ∧ (sliding .outward 401).slides[(0 : Slide)].state ≠ .stowed := by
  refine ⟨by decide, by decide, hears_of (by decide), hears_of (by decide), by decide,
    by decide, by decide, ?_, ?_, by unfold DriveAwayAgrees AlarmFollows; decide, by decide⟩
    <;> (unfold SlideMayMove SlideMayJog; decide)

/-- Slide 1 jogging outward for Link 1 in Service; its owner may call it back by HOLD. -/
theorem witness_SlideMoveStarts_jogged :
    (let x := { hold .outward .running with kind := .jog, jogged := true };
     let s := { sliding .outward 401 with sessions := [x], control := serviced.control };
      Hears 0 s ∧ s.control.mode = .service ∧ s.control.serviceOwner = some 0 ∧ permits 0 .moveSlide s = true
        ∧ KindAsked.hold ≠ .jog ∧ SlideMayMove 0 .inward s ∧ x.cover = .one (.slide 0) ∧ x.owner = .link 0
        ∧ x.origin = .link ∧ x.phase = .running ∧ x.creep = false ∧ x.dir = some Dir.inward.flip ∧ DriveAwayAgrees s
        ∧ s.slides[(0 : Slide)].state ≠ .stowed ∧ (slideSkew 0 s).natAbs ≤ 8) := by
  refine ⟨hears_of (by decide), by decide, by decide, by decide, by decide, ?_, by decide, by decide, by decide,
    by decide, by decide, by decide, by unfold DriveAwayAgrees AlarmFollows; decide, by decide, by decide⟩
  unfold SlideMayMove SlideMayJog; decide

theorem witness_AwningMoveStarts_current :
    Hears 0 { jacking with settings := { jacking.settings with awningAmps := 30 } } ∧ remainder jacking < 30
      ∧ (∀ x ∈ jacking.sessions, x.cover.isSlide = false) ∧ sessionOn (.awning 1) jacking = none
      ∧ Hears 2 (dwelling .critical) ∧ (dwelling .critical).sessions = []
      ∧ budget (dwelling .critical) < (dwelling .critical).settings.awningAmps :=
  ⟨hears_of (by decide), by decide, by decide, by decide, hears_of (by decide), rfl, by decide⟩

/-- Awning A1 retracting for Link 1, and waiting to extend for it. -/
def retractingOwn : State :=
  { extending 9 with
    sessions := [{ hold .inward .running with cover := .one (.awning 0), kind := .oneTouch, keepDue := none }]
    awnings := upd shaded.awnings 0 fun e => { e with state := .retracting }
    supply := { coach.supply with allotments := [⟨.session (.one (.awning 0)), 9, none⟩] } }

def awningWaiting : State :=
  { shaded with
    control := { shaded.control with idleDue := none }
    sessions := [{ hold .outward .waiting with cover := .one (.awning 0), kind := .oneTouch, keepDue := none }]
    supply := { coach.supply with queue := [⟨.session (.one (.awning 0)), 9, 0⟩] } }

theorem witness_AwningMoveStarts_own :
    Hears 0 (extending 9) ∧ Hears 0 retractingOwn ∧ Hears 0 awningWaiting
      ∧ DriveAwayAgrees (extending 9) ∧ DriveAwayAgrees retractingOwn ∧ DriveAwayAgrees awningWaiting
      ∧ (extending 9).sessions.map (·.dir) = [some Dir.inward.flip]
      ∧ (extending 9).supply.allotments.map (·.holder) = [.session (.one (.awning 0))]
      ∧ awningWaiting.supply.queue.map (·.holder) = [.session (.one (.awning 0))]
      ∧ awningWaiting.supply.allotments = [] ∧ retractingOwn.supply.queue = []
      ∧ retractingOwn.supply.allotments = [⟨.session (.one (.awning 0)), 9, none⟩]
      ∧ retractingOwn.settings.awningAmps ≤ budget retractingOwn
      ∧ budget { retractingOwn with supply := { retractingOwn.supply with state := .critical } } = 0 :=
  ⟨hears_of (by decide), hears_of (by decide), hears_of (by decide),
    by unfold DriveAwayAgrees AlarmFollows; decide, by unfold DriveAwayAgrees AlarmFollows; decide,
    by unfold DriveAwayAgrees AlarmFollows; decide, by decide⟩

theorem witness_JackMoveStarts_current :
    Hears 0 jacking ∧ jacking.supply.allotments = [⟨.pump [.one (.jack 0)], 140, some 1⟩]
      ∧ (∀ x ∈ jacking.sessions, x.cover.meets (.one (.jack 1)) = false ∧ x.cover.isSlide = false)
      ∧ Hears 0 (extending 30) ∧ Hears 0 (crowded (extending 30)) ∧ pumpAllotted (extending 30) = false ∧ pumpQueued (extending 30) = false
      ∧ remainder (extending 30) < (extending 30).settings.pumpAmps
      ∧ (extending 30).settings.pumpAmps ≤ budget (extending 30)
      ∧ (crowded (extending 30)).supply.queue.length = 8
      ∧ pumpQueued (crowded (extending 30)) = false
      ∧ budget (dwelling .low) < (dwelling .low).settings.pumpAmps :=
  ⟨hears_of (by decide), by decide, by decide, hears_of (by decide), hears_of (by decide),
    by decide⟩

/-- Jack 1's session waiting for the pump. -/
def jackWaiting : State :=
  { coach with
    control := { coach.control with idleDue := none }
    sessions := [{ jackHold with phase := .waiting, runFrom := none }]
    supply := { coach.supply with queue := [⟨.pump [.one (.jack 0)], 140, 0⟩] } }

theorem witness_JackMoveStarts_joins :
    Hears 0 jackWaiting ∧ jackWaiting.level.state ≠ .holding ∧ pumpAllotted jackWaiting = false
      ∧ jackWaiting.supply.queue[0]? = some ⟨.pump [.one (.jack 0)], 140, 0⟩
      ∧ (∀ x ∈ jackWaiting.sessions, x.cover.meets (.one (.jack 1)) = false ∧ x.cover.isSlide = false)
      ∧ supportSlidesStowed jackWaiting = true ∧ chassisCondition jackWaiting = .parked :=
  ⟨hears_of (by decide), by decide, by decide, rfl, by decide, by decide, by decide⟩

theorem witness_JackMoveStarts_own :
    Hears 0 jacking ∧ jacking.sessions = [jackHold] ∧ jackHold.dir = some Dir.inward.flip ∧ jackHold.creep = false
      ∧ DriveAwayAgrees jacking ∧ chassisCondition jacking ≠ .travel ∧ supportSlidesStowed jacking = true
      ∧ Hears 0 jackWaiting ∧ DriveAwayAgrees jackWaiting ∧ jackWaiting.sessions.map (·.phase) = [.waiting] :=
  ⟨hears_of (by decide), rfl, rfl, rfl, by unfold DriveAwayAgrees AlarmFollows; decide, by decide, by decide,
    hears_of (by decide), by unfold DriveAwayAgrees AlarmFollows; decide, rfl⟩

/-- The owner's reversal of a jack that is down and of one that is up, and its targets 3 and 4 for the latter (log 68). -/
theorem witness_JackMoveStarts_ends :
    (let s := { jacking with sampler := levelledCoach.sampler };
      Hears 0 s ∧ s.level.state ≠ .holding ∧ DriveAwayAgrees s ∧ supportSlidesStowed s = true ∧ 50 < jackStroke 0 s)
    ∧ jackStroke 0 jacking = 0 ∧ jacking.drive[extendValve 0].applied ≠ 0
    ∧ jackHold.kind = .hold ∧ jackHold.phase = .running ∧ jackHold.dir = some .outward
    ∧ chassisCondition jacking = .parked ∧ jacking.control.settingsDefaulted = false
    ∧ jacking.jacks[(0 : Jack)].fault.kind = none ∧ 4 ≤ jacking.settings.maxStroke[(0 : Jack)] :=
  ⟨⟨hears_of (by decide), by decide, by unfold DriveAwayAgrees AlarmFollows; decide, by decide⟩, by decide⟩

theorem witness_jacks_must_wait :
    (∀ x ∈ (extending 30).sessions, x.cover.isJacks = false) ∧ (extending 30).level.state ≠ .holding
      ∧ attitudeValid (extending 30) = true ∧ tooSteep (extending 30) = false
      ∧ chassisCondition (extending 30) = .parked ∧ supportSlidesStowed (extending 30) = true
      ∧ ¬((extending 30).settings.pumpAmps ≤ remainder (extending 30) ∧ (extending 30).supply.queue = [])
      ∧ (extending 30).supply.queue.length < 8 ∧ (dwelling .low).level.state ≠ .holding := by
  decide

theorem witness_MoveIsTurnedAway_own :
    (hold .outward .running).owner = .link 0 ∧ sessionOn (.slide 0) queued = some (hold .outward .waiting)
      ∧ homed (.slide 0) (sliding .outward 401) = true
      ∧ min (401 : Word).toNat (channelEnd (.slide 0) (sliding .outward 401)) ≤ position (.slide 0) (sliding .outward 401)
      ∧ position (.slide 0) (sliding .outward 401) ≤ min (65535 : Word).toNat (channelEnd (.slide 0) (sliding .outward 401))
      ∧ Hears 0 { queued with sessions := [{ hold .inward .running with creep := true }] }
      ∧ Hears 0 { sliding .inward 401 with interlock := ⟨some ⟨.off, true, .other, 0, false⟩, true, none, false, false⟩ } :=
  ⟨rfl, by decide, by decide, by decide, by decide, hears_of (by decide),
    hears_of (by decide)⟩

/-- LEVEL and JACKS_UP: a covered jack, and each check that turns them away. -/
theorem witness_MoveIsTurnedAway_jacks :
    Hears 1 jacking ∧ permits 1 .moveJack jacking = true ∧ (∃ x ∈ jacking.sessions, x.cover.isJacks = true)
      ∧ permits 3 .moveJack coach = false
      ∧ Hears 0 travelling ∧ (∀ x ∈ travelling.sessions, x.cover.isJacks = false)
      ∧ Hears 0 { coach with control := { coach.control with settingsDefaulted := true } }
      ∧ Hears 0 propped ∧ propped.jacks[(3 : Jack)].fault.kind ≠ none
      ∧ Hears 0 { coach with pumpFault := ⟨some .overcurrent, true, Vector.replicate 4 false⟩ }
      ∧ Hears 0 nearLimits ∧ chassisCondition nearLimits = .parked
      ∧ tooSteep { coach with
          sampler := { coach.sampler with slots := upd coach.sampler.slots 0 fun r => { r with lastValid := -801 } } } = true
      ∧ (levelledCoach.settings.support[(1 : Slide)] = true ∧ levelledCoach.slides[(1 : Slide)].state ≠ .stowed) :=
  ⟨hears_of (by decide), by decide, by decide, by decide, hears_of (by decide), by decide, hears_of (by decide),
    hears_of (by decide), by decide, hears_of (by decide), hears_of (by decide), by decide, by decide, by decide⟩

/-- An awning one edge from its full count, from a target above the home zone, and from none. -/
theorem witness_HallEdgeCountsOrIsStray_awning :
    (∀ n, Settled (retracting n)) ∧ (retracting 300).sessions.map (·.origin) = [.ignition]
      ∧ (retracting 300).awnings[(0 : Awning)].state = .retracting ∧ channelOfHall 8 = .awning 0
      ∧ Settled retractingOwn ∧ retractingOwn.sessions.map (·.origin) = [.link]
      ∧ retractingOwn.awnings[(0 : Awning)].state = .retracting ∧ retractingOwn.awnings[(0 : Awning)].homed = true
      ∧ Settled (extending 9) ∧ (extending 9).drive[awningOutput 0].dir = some .outward
      ∧ (extending 9).awnings[(0 : Awning)].state = .extending :=
  ⟨fun _ => settled_of rfl, by decide, by decide, rfl, settled_of rfl, by decide, by decide,
    by decide, settled_of rfl, by decide⟩

/-- Slide 1 running out under awning A1, whose count stands at its clearance count of 150; its output applied or not. -/
def clearing (applied stray : Nat) : State :=
  { sliding .outward 500 with
    settings := { coach.settings with support := Vector.replicate 4 false }
    drive := upd (sliding .outward 500).drive 8 fun r => { r with applied := applied, dir := some .outward }
    pulse := { (sliding .outward 500).pulse with
      inputs := upd (sliding .outward 500).pulse.inputs 8 fun h => { h with count := 150, stray := stray } } }

theorem witness_HallEdgeCountsOrIsStray_clearance :
    (∀ applied stray, Settled (clearing applied stray) ∧ (clearing applied stray).pulse.offSince = none
      ∧ (clearing applied stray).sessions = [hold .outward .running]
      ∧ (clearing applied stray).control.mode ≠ .sleep ∧ (clearing applied stray).program.run = none
      ∧ (clearing applied stray).level.deferred = false ∧ (clearing applied stray).supply.queue = [])
    ∧ (8 : Hall) = awningHall 0 ∧ inConflict 0 0 (clearing 800 0) = true ∧ pumpAllotted (clearing 800 0) = false
    ∧ chassisCondition (clearing 800 0) = .parked ∧ (clearing 800 0).settings.support[(0 : Slide)] = false
    ∧ (clearing 800 0).drive[servingOutput 8].applied ≠ 0 ∧ (clearing 800 0).drive[servingOutput 8].dir = some .outward
    ∧ awningPosition 0 (clearing 800 0) = (clearing 800 0).settings.clearance[(0 : Awning)]
    ∧ (clearing 0 8).pulse.inputs[(8 : Hall)].stray = 8 ∧ (clearing 0 8).awnings[(0 : Awning)].homed = true
    ∧ (clearing 0 8).drive[servingOutput 8].applied = 0 ∧ (clearing 0 8).pulse.inputs[(8 : Hall)].coast = none :=
  ⟨fun _ _ => ⟨settled_of rfl, rfl, rfl, (by decide : DeviceMode.ready ≠ .sleep), rfl, rfl, rfl⟩, by decide⟩

/-! ### Witnesses: slide steps -/

/-- Program 3 brings slides 1 and 2 in as a pair that no end skips; one supply state or another. -/
def pairing (x : SupplyState) : State :=
  { coach with
    settings := { coach.settings with
      programs := upd coach.settings.programs 2 fun _ => some 8
      pool := upd (upd coach.settings.pool 8 fun r => { r with skipIfDone := false }) 9 fun r =>
        { r with skipIfDone := false, next := none } }
    supply := { coach.supply with state := x } }

theorem witness_RunProgramBegins_slides :
    (∀ x, Hears 0 (pairing x) ∧ AtRest (pairing x) ∧ DriveAwayAgrees (pairing x)
      ∧ IsSlideStep 8 0 .inward (pairing x) ∧ IsSlideStep 9 1 .inward (pairing x)
      ∧ SlideMayMove 0 .inward (pairing x) ∧ SlideMayMove 1 .inward (pairing x))
      ∧ chainOf 2 (pairing .battery) = some [8, 9] ∧ chainOf 2 (pairing .low) = some [8, 9]
      ∧ (pairing .battery).settings.pool[(8 : StepIndex)].pairNext = true ∧ PairSupply (pairing .battery)
      ∧ ¬PairSupply (pairing .low) ∧ (pairing .low).settings.slideAmps ≤ budget (pairing .low)
      ∧ 2 * (pairing .battery).settings.slideAmps ≤ budget (pairing .battery) := by
  refine ⟨fun x => ⟨hears_of (by cases x <;> decide), by unfold AtRest; cases x <;> decide,
    by unfold DriveAwayAgrees AlarmFollows; cases x <;> decide, ?_, ?_, ?_, ?_⟩, by decide, by decide, by decide, .inr rfl,
    by unfold PairSupply; decide, by decide, by decide⟩
  · unfold IsSlideStep; cases x <;> decide
  · unfold IsSlideStep; cases x <;> decide
  · unfold SlideMayMove SlideMayJog; cases x <;> decide
  · unfold SlideMayMove SlideMayJog; cases x <;> decide

/-- Both slides of the pair moving in. -/
def paired (x : SupplyState) : State :=
  { sliding .inward 3200 with
    settings := (pairing x).settings
    supply := { (sliding .inward 3200).supply with state := x }
    sessions := [{ hold .inward .running with origin := .step 8 },
      { hold .inward .running with cover := .one (.slide 1), origin := .step 9 }]
    program := { run := some {
      program := 2, owner := 0, suspended := false, steps := [⟨8, .running⟩, ⟨9, .running⟩], reason := none
      keepDue := ms 300, pair := some 0, pairWaits := false, suspendOwed := false } } }

theorem witness_RunProgramBegins_segment :
    ∀ x, (paired x).program.run.map (·.pair) = some (some 0)
      ∧ (paired x).settings.pool[(8 : StepIndex)].pairNext = true
      ∧ (paired x).settings.pool[(8 : StepIndex)].kind = .slideIn ∧ (paired x).settings.pool[(9 : StepIndex)].kind = .slideIn
      ∧ (paired x).settings.pool[(8 : StepIndex)].channel = some (.slide 0)
      ∧ (paired x).settings.pool[(9 : StepIndex)].channel = some (.slide 1)
      ∧ (sessionOn (.slide 1) (paired x)).map (·.phase) = some .running
      ∧ (sessionOn (.slide 0) (paired x)).map (·.phase) = some .running
      ∧ (slideSkew 0 (paired x)).natAbs ≤ 60 := by
  intro x; cases x <;> decide

/-- A run of Link 1 suspended before its last step, slide 2 inward. -/
def resuming (travel : Bool) : State :=
  { coach with
    control := { coach.control with idleDue := none }
    settings := (pairing .battery).settings
    interlock := ⟨some ⟨.off, true, .park, if travel then 100 else 0, false⟩, true, some (seconds 2), false, false⟩
    program := { run := some {
      program := 2, owner := 0, suspended := true, steps := [⟨8, .done⟩, ⟨9, .interrupted⟩], reason := some .stopped
      keepDue := ms 300, pair := none, pairWaits := false, suspendOwed := false } } }

theorem witness_RunRequestsEndTheRun_slides :
    Hears 0 (resuming false) ∧ Hears 0 (resuming true) ∧ DriveAwayAgrees (resuming false)
      ∧ permits 0 .sequence (resuming false) = true
      ∧ IsSlideStep 9 1 .inward (resuming false) ∧ (resuming false).settings.pool[(9 : StepIndex)].pairNext = false
      ∧ SlideMayMove 1 .inward (resuming false) ∧ chassisCondition (resuming true) = .travel
      ∧ (resuming false).settings.slideAmps ≤ budget (resuming false) ∧ (slideSkew 1 (resuming false)).natAbs ≤ 8
      ∧ (∀ y ∈ ([⟨8, .done⟩, ⟨9, .interrupted⟩] : List RunStep), y.status ≠ .running) :=
  ⟨hears_of (by decide), hears_of (by decide), by unfold DriveAwayAgrees AlarmFollows; decide, by decide,
    by unfold IsSlideStep; decide, by decide, by unfold SlideMayMove SlideMayJog; decide, by decide⟩

theorem witness_RunRequestsEndTheRun_abort :
    Hears 2 (paired .battery) ∧ permits 2 .sequence (paired .battery) = true ∧ (paired .battery).program.run.isSome = true
      ∧ (paired .battery).sessions ≠ [] ∧ (∀ x ∈ (paired .battery).sessions, x.origin ≠ .link)
      ∧ OneSessionEach (paired .battery) ∧ (paired .battery).level.deferred = false :=
  ⟨hears_of (by decide), by decide, rfl, by decide, by decide, by unfold OneSessionEach; decide, rfl⟩

/-! ### Witnesses: falls and rises of the supply with motion -/

/-- Two slides moving outward, the second granted later, with more current than LOW gives. -/
def twoSlides : State :=
  { sliding .outward 3000 with
    sessions := [hold .outward .running, { hold .outward .running with cover := .one (.slide 1) }]
    slides := updAll coach.slides fun i e => if i.val < 2 then { e with state := .movingOut } else e
    supply := { coach.supply with
      fallCount := 49, nextOrder := 3
      allotments := [⟨.session (.one (.slide 0)), 44, some 1⟩, ⟨.session (.one (.slide 1)), 44, some 2⟩] } }

theorem witness_CountsAtTheirLimitTakeEffect_motion :
    Settled twoSlides ∧ twoSlides.control.mode ≠ .sleep ∧ supplyValid twoSlides = true ∧ 49 ≤ twoSlides.supply.fallCount
      ∧ budgetOf (stateBelow twoSlides.supply.state) < 44 + 44 ∧ 44 ≤ budgetOf (stateBelow twoSlides.supply.state)
      ∧ Settled { queued with supply := { queued.supply with state := .low, fallCount := 49, riseCount := 49 } }
      ∧ supplyValid queued = true ∧ budgetOf (stateBelow .low) < 44 ∧ 44 ≤ budgetOf (stateAbove .low)
      ∧ queued.supply.queue = [⟨.session (.one (.slide 0)), 44, 0⟩] ∧ queued.supply.allotments = []
      ∧ queued.slides[(0 : Slide)].state = slideRest 0 queued ∧ DriveAwayAgrees queued
      ∧ (hold .outward .waiting).dir = some .outward ∧ (hold .outward .waiting).target = none :=
  ⟨settled_of rfl, by decide, by decide, by decide, by decide, by decide,
    settled_of (by decide), by decide, by decide, by decide, by decide, by decide, by decide,
    by unfold DriveAwayAgrees AlarmFollows; decide, rfl, rfl⟩

/-! ### Witnesses: outputs that stop, stalls, trips -/

theorem witness_BoundaryAppliesDuty_held :
    (let s := driving 0 fun r => { r with applied := 450, dir := some .outward, buffered := some 0 };
      s.drive[(0 : Output)].buffered = some 0 ∧ sessionOn (.slide 0) s = none)
    ∧ (let s := driving 0 fun r => { r with buffered := some 450 }; s.drive[(0 : Output)].dir = none)
    ∧ (let s := { driving 0 (fun r => { r with dir := some .outward, buffered := some 450 }) with
          pulse := (pulsing 0 fun h => { h with coast := some ⟨.inward, ms 200⟩ }).pulse };
      ((s.pulse.inputs[(0 : Hall)].coast).any fun w => decide (s.drive[(0 : Output)].dir ≠ some w.dir)) = true)
    ∧ (let s := driving 22 fun r => { r with applied := 350, buffered := some 0 };
      s.drive[(22 : Output)].buffered = some 0 ∧ sessionOn (.jack 5) s = none) := by
  decide

/-- Jack 1 stopping, its extend valve the last to fall. -/
def stoppingJack : State :=
  { jacking with
    sessions := [stoppingWith .keepLost (ms 300) jackHold]
    drive := upd jacking.drive (extendValve 0) fun r => { r with buffered := some 0 } }

/-- Slide 1 stopping, one motor already at 0, or not. -/
def stoppingSlide (rear : Nat) : State :=
  { sliding .outward 100 with
    sessions := [stoppingWith .keepLost (ms 300) (hold .outward .running)]
    drive := updAll (sliding .outward 100).drive fun o r =>
      if o.val = 0 then { r with buffered := some 0 } else if o.val = 1 then { r with applied := rear } else r }

theorem witness_BoundaryAppliesDuty_stops :
    Settled stoppingJack ∧ stoppingJack.sessions.map (·.phase) = [.stopping] ∧ stoppingJack.supply.queue = []
      ∧ stoppingJack.supply.allotments = [⟨.pump [.one (.jack 0)], 140, some 1⟩]
      ∧ stoppingJack.drive[extendValve 0].applied ≠ 0 ∧ stoppingJack.drive[extendValve 0].buffered = some 0
      ∧ stoppingJack.drive[retractValve 0].applied = 0
      ∧ (∀ rear, Settled (stoppingSlide rear))
      ∧ (stoppingSlide 0).drive[(1 : Output)].applied = 0 ∧ (stoppingSlide 450).drive[(1 : Output)].applied ≠ 0
      ∧ (1 : Output) ∈ outputsOfCover (.one (.slide 0)) :=
  ⟨settled_of (by decide), by decide, by decide, by decide, by decide, by decide, by decide,
    fun _ => settled_of rfl, by decide⟩

theorem witness_StallsAreJudged_ends :
    stallDue 1 seatedOne = some (ms 400) ∧ motorOfHall 1 = .rear ∧ Motor.rear.other = .front
      ∧ slidePosition 0 seatedOne ≤ 400 ∧ seatedOne.drive[frontOutput 0].applied ≠ 0
      ∧ stallDue 0 (sliding .outward 9200) = some (ms 400)
      ∧ (sliding .outward 9200).settings.slideFull[(0 : Slide)] ≤ slidePosition 0 (sliding .outward 9200) + 400
      ∧ 400 < slidePosition 0 (sliding .inward 401) ∧ 200 < awningPosition 0 (retracting 201)
      ∧ (retracting 201).awnings[(0 : Awning)].homed = true := by
  decide

/-- Asleep with A1 out, one gust short of a trip. -/
def windAsleep : State :=
  { asleep with
    awnings := upd coach.awnings 0 fun e => { e with state := .partially }, wind := { coach.wind with gusts := 2 } }

theorem witness_WindTripRetractsAwnings_asleep :
    Settled windAsleep ∧ AtRest windAsleep ∧ DriveAwayAgrees windAsleep ∧ DriveAwayAgrees (windy 0 2)
      ∧ windAsleep.control.mode = .sleep ∧ windAsleep.control.wake = none ∧ windAsleep.pulse.offSince = some 0
      ∧ windAsleep.pulse.wind.on = true ∧ windAsleep.settings.windTripCount ≤ windAsleep.wind.gusts + 1 :=
  ⟨settled_of (by decide), by unfold AtRest; decide, by unfold DriveAwayAgrees AlarmFollows; decide,
    by unfold DriveAwayAgrees AlarmFollows; decide, by decide⟩

/-- A1 under a link's session, one gust short of a trip. -/
def gusty (s : State) : State := { s with wind := { s.wind with gusts := 2 } }

theorem witness_WindTripRetractsAwnings_session :
    ∀ s ∈ [extending 9, retractingOwn, awningWaiting],
      settledNow (gusty s) = true ∧ DriveAwayAgrees (gusty s) ∧ (gusty s).pulse.wind.on = true
      ∧ (gusty s).settings.windTripCount ≤ (gusty s).wind.gusts + 1 ∧ (gusty s).control.mode = .ready
      ∧ (gusty s).sessions.map (fun x => (x.cover, x.op, x.origin)) = [(.one (.awning 0), .move, .link)]
      ∧ (gusty s).program.run = none ∧ (gusty s).level.deferred = false ∧ (gusty s).wind.lockoutDue = none
      ∧ (gusty s).supply.allotments.map (·.holder) ++ (gusty s).supply.queue.map (·.holder)
        = [.session (.one (.awning 0))]
      ∧ (gusty s).awnings[(1 : Awning)].state = .stowed ∧ (gusty s).awnings[(0 : Awning)].state ≠ .stowed
      ∧ awningRest 0 (gusty s) ≠ .stowed ∧ chassisCondition (gusty s) = .parked := by
  unfold DriveAwayAgrees AlarmFollows; decide

/-! ### Small tests of what the review changed -/

/-- A next state, and what holds of it. -/
def after (c : Instr) (s : State) (p : State → Bool) : Bool :=
  match exec c s with
  | .next t => p t
  | _ => false

/-- 05 R90: a motion reset that puts the last awning back to STOWED keeps drive-away and the alarm (log 64). -/
theorem test_motion_reset_keeps_alarm :
    after (.motionReset 0)
      { travelling with awnings := upd travelling.awnings 0 fun e => { e with wasStowed := true } }
      (fun t => !driveAwayHolds t && decide (t.interlock = travelling.interlock)) = true := by
  decide +kernel

/-- 09 R150, 05 R86: the edge that takes A1 above its clearance count ends the slide beneath it. -/
theorem test_awning_edge_ends_slide :
    after (.hallEdge 8) (clearing 800 0) (fun t => decide (t.sessions = []
      ∧ t.slides[(0 : Slide)].lastEnd = some ⟨.interlock, some .awningClear, .link 0, .move⟩
      ∧ t.drive[(0 : Output)].applied = 0)) = true := by decide

/-- 02 R22, R35: slot 0's excitation takes its signs in turn while frames run, and is not driven otherwise. -/
theorem test_excitation :
    excitation 2 0 coach = some .normal ∧ excitation 2 1 coach = some .reversed ∧ excitation 2 8 coach = none
      ∧ excitation 14 0 coach = none ∧ excitation 2 0 asleep = none := by decide

/-- 12 R195: the posture block's 64 bytes begin at byte 1024. -/
theorem test_block_place : Block.settings.place = (0, 512) ∧ Block.posture.place = (1024, 64) := by decide

/-- 12 R195: a byte written is read back, its neighbour is left, and writing the blank byte unlists it. -/
theorem test_memory_byte :
    readByte 1024 (writeByte 1024 7 [(1023, 5)]) = 7 ∧ readByte 1023 (writeByte 1024 7 [(1023, 5)]) = 5
      ∧ writeByte 1023 0 [(1023, 5)] = [] ∧ Memory.wf [(2047, 1)] = true ∧ Memory.wf [(2048, 1)] = false := by decide

/-- 12 R195: the CRC stands in the block's last two bytes, high byte first, and covers all before them. -/
theorem test_posture_crc :
    (Block.posture.bytes (Block.posture.write leftOut.put [])).drop 62
      = bytesOf 2 (crc16 (leftOut.put ++ List.replicate 12 0)).toNat := by decide +kernel

/-- 01 R11, 02 R28: with one tilt slot invalid neither filtered value steps. -/
theorem test_filter_needs_attitude :
    TiltFilter.step false { value := some 100 } ⟨20, true⟩ = ⟨20, true⟩
      ∧ TiltFilter.step true { value := some 100 } ⟨20, true⟩ = ⟨30, true⟩ := by decide

/-- 09 R153: a stall start clears the mark, so that a second stall is reported. -/
theorem test_stall_start_clears_mark :
    ((reportRise 8 0 300 (pulsing 8 fun h => { h with stallReported := true })).pulse.inputs[(8 : Hall)]).stallReported
      = false := by decide

/-- 11 R191: a byte in a reply that was being sent at a Sleep entry is ignored without a flag, after a wake too, and the
reply ends in HUNT (log 61). -/
theorem test_slept_reply :
    (after (.linkByte 1 0x5C false) (receiving 1 (.sleptReply .nothing)) fun t =>
        decide (t = receiving 1 (.sleptReply .nothing)))
      && (after (.linkByte 1 0x5C true) sleptReplying fun t => decide (t = sleptReplying))
      && (after (.keep 1) (receiving 1 (.sleptReply .nothing)) fun t =>
        decide (t = receiving 1 (.sleptReply .nothing)))
      && (after (.replySent 1) (receiving 1 (.sleptReply .nothing)) fun t =>
        decide (t.links[(1 : Link)].receiver = .hunt ∧ t.links[(1 : Link)].flags = {})) = true := by decide

/-- 05 R74, R87: a chassis that becomes UNKNOWN has drive-away evaluated (log 64). -/
theorem test_stale_chassis_is_judged :
    after .stalenessExpiry
      { timing with interlock := ⟨some ⟨.off, false, .other, 10, true⟩, true, some (seconds 5), true, true⟩ }
      (fun t => !t.interlock.driveAway && !t.interlock.alarm && decide (chassisCondition t = .unknown)) = true := by
  decide

/-- 08 R135: a JOG that its owner calls back by HOLD creeps on, clear of the end zones (log 60). -/
theorem test_jog_called_back_creeps :
    after (.move 0 (.slide 0) .inward .hold none)
      { sliding .outward 1000 with
        sessions := [{ hold .outward .running with kind := .jog, jogged := true }], control := serviced.control }
      (fun t => decide (t.drive[(0 : Output)].buffered = some 300 ∧ t.sessions.map (·.kind) = [.hold])) = true := by
  decide

/-- 07 R126, 01 R4: a retract of a jack that is up already ends DONE at the MOVE, its valve never opened (log 68). -/
theorem test_single_jack_at_its_end :
    after (.move 0 (.jack 2) .inward .hold none) coach (fun t => decide (t.sessions = [] ∧ t.supply.allotments = []
      ∧ t.jacks[(2 : Jack)].lastEnd = some ⟨.done, none, .link 0, .move⟩
      ∧ t.drive[retractValve 2].buffered = some 0 ∧ t.drive[pumpOutput].buffered = none)) = true := by
  decide

end Sys2Proof.Tests
end

section
/-! PROOF. The published value of a slot, from the conversions of a frame to the range of the slot's role (02 R20 to
R25). -/

namespace Sys2Proof.Machine

/-! ### The accumulator (02 R22, R23) -/

/-- A sum over the first `n` entries with their places is one over the places below `n`, where a place beyond the list's
end holds an entry that counts 0. -/
theorem sum_zipIdx_take {α : Type} (g : α × Nat → Int) (d : α) (hd : ∀ k, g (d, k) = 0) (l : List α) (n : Nat) :
    ((l.take n).zipIdx.map g).sum = ((List.range n).map fun k => g (l.getD k d, k)).sum := by
  induction n with
  | zero => simp
  | succ n ih =>
    rw [List.take_add_one, List.zipIdx_append, List.range_succ]
    simp only [List.map_append, List.sum_append, ih]
    by_cases hn : n < l.length
    · simp [hn, Nat.min_eq_left hn.le]
    · simp [Nat.le_of_not_lt hn, hd]

/-- What a reading `x.1`, taken as conversion `x.2`, adds to the accumulator: itself under the sign of its place. -/
def signedReading (signs : BitVec 4) (x : BitVec 12 × Nat) : Int :=
  (if signMinus signs x.2 then -1 else 1) * (x.1.toNat : Int)

theorem accumulate_eq_signedReading (signs : BitVec 4) (n : Nat) (raw : Vector (BitVec 12) 32) :
    accumulate signs n raw = ((raw.toList.take n).zipIdx.map (signedReading signs)).sum := by
  have hsign : (fun x : BitVec 12 × Nat => if signMinus signs x.2 then -(x.1.toNat : Int) else (x.1.toNat : Int))
      = signedReading signs := by
    funext x
    by_cases h : signMinus signs x.2 <;> simp [signedReading, h]
  rw [accumulate, hsign, List.sum_eq_foldl]

/-- The accumulator by places, however many conversions are asked for: past the last one nothing is added. -/
theorem accumulate_eq_sum_range (signs : BitVec 4) (n : Nat) (raw : Vector (BitVec 12) 32) :
    accumulate signs n raw
      = ((List.range n).map fun k => signedReading signs (raw.toList.getD k 0, k)).sum := by
  have hzero : ∀ k, signedReading signs (0, k) = 0 := fun k => by simp [signedReading]
  rw [accumulate_eq_signedReading, sum_zipIdx_take _ 0 hzero]

/-! ### The limits (02 R20, R24) -/

theorem clampInt_eq_max_min {lo hi : Int} (h : lo ≤ hi) (x : Int) : clampInt lo hi x = max lo (min hi x) := by
  unfold clampInt; split_ifs <;> omega

theorem scale_eq_max_min (c : SlotSettings) (sample : Int) :
    scale c sample = max (-32000) (min 32000 ((sample * c.gain).tdiv 1024 + c.offset)) :=
  clampInt_eq_max_min (by decide) _

theorem publishedRange_fst (slot : Slot) : (publishedRange slot).1 = if slot.val < 2 then -1500 else 0 := by
  simp only [publishedRange]; split_ifs <;> rfl

theorem publishedRange_snd (slot : Slot) :
    (publishedRange slot).2 = if slot.val < 2 then 1500 else if slot.val < 8 then 2500 else if slot.val < 14 then 3500
      else if slot.val = 14 then 2000 else 2500 := by
  simp only [publishedRange]; split_ifs <;> rfl

theorem publishedRange_ordered (slot : Slot) : (publishedRange slot).1 ≤ (publishedRange slot).2 := by
  simp only [publishedRange]; split_ifs <;> decide

theorem publish_eq_max_min (slot : Slot) (v : Int) :
    publish slot v = max (publishedRange slot).1 (min (publishedRange slot).2 v) :=
  clampInt_eq_max_min (publishedRange_ordered slot) v

/-! ### The value of a slot -/

/-- The checks of 02 R25 as one condition on the scaled sample. -/
theorem slotValue_eq_ite (slot : Slot) (c : SlotSettings) (raw : Vector (BitVec 12) 32) :
    slotValue slot c raw
      = if c.enabled = true ∧ c.windowMin ≤ scale c (sampleOf c raw) ∧ scale c (sampleOf c raw) ≤ c.windowMax
        then some (publish slot (scale c (sampleOf c raw))) else none := by
  simp only [slotValue, Bool.and_eq_true, decide_eq_true_eq, and_assoc]

/-- Settles O49: a slot's value as the chain of its rules, the accumulator by places, the scaled sample and the slot's
range each rewritten by its own equation. -/
theorem slotValueFromConversions : Obligations.SlotValueFromConversions := by
  intro slot c raw sum value lo hi
  have hsum : accumulate c.signs c.conversions raw = sum := accumulate_eq_sum_range _ _ _
  have hvalue : scale c (sampleOf c raw) = value := by rw [scale_eq_max_min, sampleOf, hsum]
  have hpublish : publish slot value = max lo (min hi value) := by
    rw [publish_eq_max_min, publishedRange_fst, publishedRange_snd]
  rw [slotValue_eq_ite, hvalue, hpublish]

end Sys2Proof.Machine
end

section
/-! PROOF. The duty of a slide's motor, rule by rule (08 R136, R141). -/

namespace Sys2Proof.Machine

/-- Within the deadband neither motor is trimmed. -/
theorem motorDuty_of_skew_le_deadband (m : Motor) (base : Nat) (d : Dir) {skew : Int} (h : skew.natAbs ≤ 8) :
    motorDuty m base d skew .none = base :=
  if_pos h

theorem motorDuty_leadingMotor (base : Nat) (d : Dir) {skew : Int} (h : ¬ skew.natAbs ≤ 8) :
    motorDuty (leadingMotor d skew) base d skew .none = max 200 (base - (skew.natAbs - 8) * 6) :=
  (if_neg h).trans (if_pos rfl)

theorem motorDuty_of_ne_leadingMotor {m : Motor} (base : Nat) {d : Dir} {skew : Int} (hm : m ≠ leadingMotor d skew) :
    motorDuty m base d skew .none = base :=
  (congrArg (ite _ base) (if_neg hm.symm)).trans (ite_self base)

/-- A seating slide is not trimmed at any skew: only the motor that is not seated is still driven. -/
theorem motorDuty_oneSeated (m seated : Motor) (base : Nat) (d : Dir) (skew : Int) (due : Nat) :
    motorDuty m base d skew (.oneSeated seated due) = if m = seated then 0 else base :=
  rfl

/-- Settles O46, by the deadband and then by whether the motor is the leading one. -/
theorem trimSlowsTheLeadingMotor : Obligations.TrimSlowsTheLeadingMotor := by
  intro m base d skew leads
  have hleads : leads = leadingMotor d skew := rfl
  refine ⟨?_, fun seated due => motorDuty_oneSeated m seated base d skew due⟩
  rw [hleads]
  split_ifs with hskew hm
  · exact motorDuty_of_skew_le_deadband m base d hskew
  · rw [hm]
    exact motorDuty_leadingMotor base d hskew
  · exact motorDuty_of_ne_leadingMotor base hm

end Sys2Proof.Machine
end

section
/-! PROOF. The event sets after a post and after READ_EVENTS (11 R188, R189), and the link's error flags after
READ_LINK_STATUS and a byte during its reply (11 R181, R186). -/

namespace Sys2Proof.Machine

/-! ### Vectors of units -/

/-- Only what is made of the entry itself counts. -/
theorem upd_congr_at {α : Type} {n : Nat} {v : Vector α n} {i : Fin n} {f g : α → α} (h : f v[i] = g v[i]) :
    upd v i f = upd v i g :=
  congrArg (fun x => v.set i x) h

theorem upd_get_self {α : Type} {n : Nat} (v : Vector α n) (i : Fin n) (f : α → α) : (upd v i f)[i] = f v[i] := by
  simp

theorem upd_upd {α : Type} {n : Nat} (v : Vector α n) (i : Fin n) (f g : α → α) :
    upd (upd v i f) i g = upd v i fun x => g (f x) := by
  rw [upd, upd_get_self, upd, Vector.set_set, upd]

theorem updAll_updAll {α : Type} {n : Nat} (v : Vector α n) (f g : Fin n → α → α) :
    updAll (updAll v f) g = updAll v fun i x => g i (f i x) := by
  ext k hk
  simp

/-! ### A post (11 R188) -/

theorem Event.bit_le (e : Event) : e.bit ≤ 13 := by
  cases e <;> decide

theorem Event.mask_getLsbD (e : Event) (k : Nat) : e.mask.getLsbD k = decide (k = e.bit) := by
  have hbit : e.bit < 16 := by have := e.bit_le; omega
  have hmask : e.mask = BitVec.twoPow 16 e.bit := rfl
  rw [hmask, BitVec.getLsbD_twoPow, decide_eq_true hbit, Bool.true_and]
  exact decide_eq_decide.mpr eq_comm

/-- A set that holds the event already is left as it was. -/
theorem EventBox.add_add (e : Event) (b : EventBox) : EventBox.add e (EventBox.add e b) = EventBox.add e b := by
  simp [EventBox.add, EventBox.judge, BitVec.or_assoc]

theorem postEvent_pending_getLsbD (e : Event) (s : State) (l : Link) (k : Nat) :
    ((postEvent e s).events[l].pending).getLsbD k = (decide (k = e.bit) || (s.events[l].pending).getLsbD k) := by
  have hset : (postEvent e s).events[l].pending = s.events[l].pending ||| e.mask := by
    simp [EventBox.add, EventBox.judge]
  rw [hset, BitVec.getLsbD_or, Event.mask_getLsbD, Bool.or_comm]

theorem postEvent_postEvent (e : Event) (s : State) : postEvent e (postEvent e s) = postEvent e s := by
  have hevents : updAll (updAll s.events fun _ => EventBox.add e) (fun _ => EventBox.add e)
      = updAll s.events fun _ => EventBox.add e := by
    rw [updAll_updAll]; simp only [EventBox.add_add]
  exact congrArg (fun v => { s with events := v }) hevents

/-- Settles O19: the post is the model's own `EventBox.add` on every link, which is idempotent and adds one bit below
14. -/
theorem postReachesEveryLink : Obligations.PostReachesEveryLink := by
  intro e s
  refine ⟨rfl, postEvent_postEvent e s, fun l k => ⟨postEvent_pending_getLsbD e s l k, fun hk => ?_⟩⟩
  have hne : k.val ≠ e.bit := by have := e.bit_le; omega
  rw [postEvent_pending_getLsbD, decide_eq_false hne, Bool.false_or]

/-! ### READ_EVENTS (11 R189) -/

/-- An empty set has no member to share with the enable set, so the line is released (11 R190). -/
theorem EventBox.judge_emptied (b : EventBox) :
    EventBox.judge { b with pending := 0 } = { b with pending := 0, line := false } := by
  simp [EventBox.judge]

theorem judgeReadEvents_eq (l : Link) (s : State) :
    judgeReadEvents l s = ({ status := .ok, data := bytesOf 2 (s.events[l].pending).toNat },
      { s with events := upd s.events l fun b => { b with pending := 0, line := false } }) := by
  simp only [judgeReadEvents, setBox, EventBox.judge_emptied]

theorem exec_readEvents (l : Link) (s : State) :
    exec (.readEvents l) s = .next (event (requestRow l false 0x0C (judgeReadEvents l)) s) :=
  rfl

/-- Settles O17: the request is answered with what its judgement gives, which does not depend on the Mode
Controller. -/
theorem readEventsEmptiesOwnSet : Obligations.ReadEventsEmptiesOwnSet := by
  intro l s h
  rw [exec_readEvents]
  exact congrArg Host.Outcome.next (request_plain h rfl rfl h.1.2 fun m _ _ _ _ => judgeReadEvents_eq l _)

/-! ### A byte in REPLY (11 R181) -/

theorem lateByte_eq (l : Link) (after : AfterReply) (s : State) :
    lateByte l after s = { s with links := upd s.links l fun r =>
      { r with flags := { r.flags with overrun := true }, receiver := .reply true after, lastByteAt := s.now } } := by
  simp only [lateByte, setFlags, setReceiver, setLink, upd_upd]

theorem Settled.withLinks {s : State} (h : Settled s) (links : Vector LinkRec 4) :
    Settled { s with links := links } := h

/-- A good byte while the reply is sent sets OVERRUN, and nothing more comes of it at this event. -/
theorem exec_linkByte_in_reply {l : Link} {s : State} (b : Byte) {late : Bool} {after : AfterReply} (h : Settled s)
    (hm : s.control.mode ≠ .sleep) (hr : s.links[l].receiver = .reply late after) :
    exec (.linkByte l b true) s = .next { s with links := upd s.links l fun r =>
      { r with flags := { r.flags with overrun := true }, receiver := .reply true after, lastByteAt := s.now } } := by
  have htake : takeByte l b true s = lateByte l after s := by
    rw [takeByte, if_neg hm, if_pos rfl, goodByte, hr]
  have hsettled : Settled (takeByte l b true s) := by
    rw [htake, lateByte_eq]; exact h.withLinks _
  rw [← lateByte_eq, ← htake]
  exact congrArg _ (event_settled h.1.1 hsettled)

/-! ### A taken request -/

/-- A taken request leaves the idle timer in agreement with its conditions and no wake window open. -/
theorem answered_settled {s : State} (h : Quiet s) (l : Link) (code : Byte) (rep : Reply) :
    Settled (answered l code rep s) := by
  refine ⟨h, ?_, fun w hw => nomatch hw⟩
  change (if idleHolds s then some (s.now + Config.idleTime) else none).isSome = idleHolds s
  cases idleHolds s <;> rfl

theorem Hears.not_sleep {l : Link} {s : State} (h : Hears l s) : s.control.mode ≠ .sleep := by
  obtain ⟨-, hm | hm, -⟩ := h <;> simp [hm]

/-! ### READ_LINK_STATUS (11 R186) -/

/-- The flags' code by bit numbers, from SHORT up (11 section 11.8). -/
theorem LinkFlags.code_eq (f : LinkFlags) :
    f.code = (if f.short then 1 else 0) + (if f.overlong then 2 else 0) + (if f.framing then 4 else 0)
      + (if f.crcFail then 8 else 0) + (if f.overrun then 16 else 0) := by
  have hbit : ∀ (b : Bool) (n : Nat), n * boolBit b = if b then n else 0 := fun b n => by cases b <;> simp [boolBit]
  have hshort : boolBit f.short = if f.short then 1 else 0 := rfl
  rw [LinkFlags.code, hbit, hbit, hbit, hbit, hshort]
  omega

theorem judgeReadLinkStatus_eq (l : Link) (s : State) :
    judgeReadLinkStatus l s
      = ({ status := .ok, data := [byte (s.links[l].flags).code, byte (s.settings.permissions[l]).toNat] },
        { s with links := upd s.links l fun r => { r with flags := {} } }) :=
  rfl

theorem exec_readLinkStatus (l : Link) (s : State) :
    exec (.readLinkStatus l) s = .next (event (requestRow l false 0x10 (judgeReadLinkStatus l)) s) :=
  rfl

/-- The link's record while the reply to READ_LINK_STATUS is sent. -/
theorem answered_cleared_links (l : Link) (code : Byte) (rep : Reply) (s : State) :
    (answered l code rep { s with links := upd s.links l fun r => { r with flags := {} } }).links[l]
      = replying code rep { s.links[l] with flags := {} } := by
  rw [answered, upd_get_self, upd_get_self]

/-- Settles O22: the flags go out and are cleared before the reply begins, so that after a byte during the reply OVERRUN
alone is set. -/
theorem readLinkStatusClearsFlags : Obligations.ReadLinkStatusClearsFlags := by
  intro l s h f code cleared t
  have hquiet : Quiet s := h.1
  have hcode : f.code = code := f.code_eq
  have hrecord : t.links[l] = replying 0x10 _ { s.links[l] with flags := {} } := answered_cleared_links l _ _ s
  refine ⟨?_, fun b => ?_⟩
  · rw [exec_readLinkStatus]
    refine congrArg Host.Outcome.next (request_plain h rfl rfl hquiet.2 fun m _ _ _ _ => ?_)
    rw [judgeReadLinkStatus_eq, ← hcode]
  · have hsettled : Settled t := answered_settled (s := { s with links := cleared }) hquiet l _ _
    have hreply : t.links[l].receiver = .reply false .nothing := by rw [hrecord]; rfl
    rw [exec_linkByte_in_reply b hsettled h.not_sleep hreply]
    refine congrArg (fun v => Host.Outcome.next { t with links := v }) (upd_congr_at ?_)
    rw [hrecord]
    rfl

end Sys2Proof.Machine
end
